-- ==== Sys2Proof/Word.lean ====
section
/-!
DEFINITION. The value types of RK-IMU: a byte, the number system of physical values, the six axes and the
six-element register file, and the answer of a bus primitive.
-/

namespace Sys2Proof

/-- A byte, 0..255 (R12): a register address, a command word, a value moved over the bus. -/
abbrev Byte := BitVec 8

/-- The spec's `Num`, the number system of physical values: exact rationals (R13, 92_eei_decisions.md D2).
DEDUCED, unsafe for a realisation in a finite format (assumption 2). -/
abbrev NumQ := Rat

/-- The six axes in the order of every six-element file and record (R22): index 0 = ax, ..., 5 = gz. -/
inductive Axis where
  | ax | ay | az | gx | gy | gz
deriving DecidableEq, Repr

/-- The axis index 0..5 of R22. -/
def Axis.index : Axis → Nat
  | .ax => 0
  | .ay => 1
  | .az => 2
  | .gx => 3
  | .gy => 4
  | .gz => 5

/-- A file of six `Num` registers, or a six-field record, in axis order (R22, R92). -/
structure Vec6 where
  ax : NumQ
  ay : NumQ
  az : NumQ
  gx : NumQ
  gy : NumQ
  gz : NumQ
deriving DecidableEq, Repr, Inhabited

/-- Element `i` of a file: `X[i]` of R14. -/
def Vec6.get (v : Vec6) : Axis → NumQ
  | .ax => v.ax
  | .ay => v.ay
  | .az => v.az
  | .gx => v.gx
  | .gy => v.gy
  | .gz => v.gz

/-- The file whose element `i` is `f i`. -/
def Vec6.ofFn (f : Axis → NumQ) : Vec6 :=
  { ax := f .ax, ay := f .ay, az := f .az, gx := f .gx, gy := f .gy, gz := f .gz }

/-- `(0.0, 0.0, 0.0, 0.0, 0.0, 0.0)`. -/
def Vec6.zero : Vec6 := { ax := 0, ay := 0, az := 0, gx := 0, gy := 0, gz := 0 }

/-- What the bus answers (R53 to R55, R91): `FAIL`, or success. A successful read carries its byte. A successful
open or write is `OK`, and the byte carried with it means nothing there. -/
inductive Answer where
  | fail
  | ok (b : Byte)
deriving DecidableEq, Repr, Inhabited

/-- `OK` or `FAIL` of an answer, for the primitives that return no byte. -/
def Answer.isOk : Answer → Bool
  | .fail => false
  | .ok _ => true

end Sys2Proof
end

