-- ==== Sys2Proof/Config.lean ====
section
/-!
DEFINITION. The configuration record CFG of R6, the test that admits one (R8), and the two things the spec leaves to
the environment: the configuration supplied at reset and the answers of the bus. Both are constants without a body.
-/

namespace Sys2Proof

/-- The parameters of R6, as the environment may supply them: not yet tested against R8. The default values are the
synthetic configuration CFG_T of 95_test_vectors.md, section 2, for the tests. No rule reads a default. -/
structure CfgFields where
  busNum : Nat := 1
  devAddr : Nat := 0x55
  regResetCfg : Byte := 0x03
  regCtrlAccel : Byte := 0x01
  regCtrlGyro : Byte := 0x02
  regStatus : Byte := 0x04
  gyroBase : Byte := 0x10
  accelBase : Byte := 0x20
  resetCmd : Byte := 0x01
  selByte : Byte := 0x21
  bduCmd : Byte := 0x40
  accelFactor : NumQ := 5 / 10000
  gyroFactor : NumQ := 4 / 1000
  gravity : NumQ := 980665 / 100000
  threshold : NumQ := 1 / 100
  targetSamples : Nat := 100
  stallLimit : Nat := 1000
  /-- Milliseconds, as the other two waits. -/
  tSettle1 : NumQ := 100
  tSettle2 : NumQ := 0
  tPoll : NumQ := 50
  skipHighAfterLowFail : Bool := true
deriving DecidableEq, Repr, Inhabited

/-- The six addresses of an output block at `base` (R51), as integers, so that a block that passes 255 shows. -/
def outputBlock (base : Byte) : List Nat := (List.range 6).map (base.toNat + ·)

/-- The sixteen register addresses the block uses (R8, R51). -/
def CfgFields.usedRegs (c : CfgFields) : List Nat :=
  [c.regResetCfg.toNat, c.regCtrlAccel.toNat, c.regCtrlGyro.toNat, c.regStatus.toNat]
    ++ outputBlock c.accelBase ++ outputBlock c.gyroBase

/-- R8: the twelve output addresses lie in 0..255. -/
def CfgFields.basesFit (c : CfgFields) : Bool :=
  decide (c.accelBase.toNat + 5 ≤ 255) && decide (c.gyroBase.toNat + 5 ≤ 255)

/-- R8: the sixteen used registers are pairwise distinct. -/
def CfgFields.regsDistinct (c : CfgFields) : Bool := decide c.usedRegs.Nodup

/-- R8: `TARGET_SAMPLES >= 1`. -/
def CfgFields.targetPositive (c : CfgFields) : Bool := decide (1 ≤ c.targetSamples)

/-- R8: `THRESHOLD >= 0`. -/
def CfgFields.thresholdNonneg (c : CfgFields) : Bool := decide (0 ≤ c.threshold)

/-- R6, R248: `T_SETTLE1 >= 100 ms`. DEDUCED, safe (assumption 5). -/
def CfgFields.settleLongEnough (c : CfgFields) : Bool := decide (100 ≤ c.tSettle1)

/-- R8, with the bound R6 and R248 put on `T_SETTLE1`. That addresses and command bytes lie in 0..255, and
`STALL_LIMIT >= 0`, hold by their types. -/
def CfgFields.isAdmitted (c : CfgFields) : Bool :=
  c.basesFit && c.regsDistinct && c.targetPositive && c.thresholdNonneg && c.settleLongEnough

/-- CFG: an admitted configuration. A state that holds any other cannot be written down; R8's refusal of one stands
where the environment supplies it (`Machine.applyReset`). -/
structure Cfg extends CfgFields where
  ok : toCfgFields.isAdmitted = true := by decide +kernel
deriving DecidableEq, Repr, Inhabited

/-- The configuration the environment supplies (R31, R38, U1), of which R6's OPEN parameters are used. Without a body:
nothing is assumed of it but R8. DEDUCED, safe (assumption 4). -/
opaque Config.environment : Cfg

/-- CFG at reset (R38): R6's values where R6 gives one, the environment's where it says OPEN. -/
def Config.fields : CfgFields :=
  { Config.environment.toCfgFields with
    gravity := 980665 / 100000
    threshold := 1 / 100
    targetSamples := 100
    stallLimit := 1000
    tPoll := 50
    skipHighAfterLowFail := true }

/-- What the bus and the device answer at draw number `n` when the state's script of answers has run out
(R58, U2: `any value`). Without a body: a free value. DEDUCED, safe (assumption 7). -/
opaque Config.freeAnswer : Nat → Answer

theorem Config.fields_admitted : Config.fields.isAdmitted = true := by
  have h := Config.environment.ok
  simp only [CfgFields.isAdmitted, Bool.and_eq_true] at h ⊢
  exact ⟨⟨⟨⟨h.1.1.1.1, h.1.1.1.2⟩, by decide +kernel⟩, by decide +kernel⟩, h.2⟩

/-- `Config.fields` with the proof that R8 admits it. -/
def Config.cfg : Cfg := { Config.fields with ok := Config.fields_admitted }

end Sys2Proof
end

