-- ==== Sys2Proof/Syntax.lean ====
section
/-!
DEFINITION. The commands of the opcode table, the codes of a response, and the abstract transactions of the bus.
-/

namespace Sys2Proof

/-- The six host commands (R80, R82). No command has an operand (R81). -/
inductive Instr where
  /-- `0x01`, initialise the device (R130). -/
  | init
  /-- `0x02`, data-ready check (R133). -/
  | poll
  /-- `0x03`, read all six axes into `S` (R135). -/
  | read
  /-- `0x04`, calibrate: write `O` (R160). -/
  | cal
  /-- `0x05`, correct `S` with `O` into `C`, emit (R183). -/
  | corr
  /-- `0x06`, live loop until cancelled (R184). -/
  | run
deriving DecidableEq, Repr

/-- The codes of a response (R83). Codes 5 to 7 are never produced. -/
inductive RespCode where
  | ok | fatal | refused | illegal | stopped
deriving DecidableEq, Repr

/-- One entry of TRACE (R37): a bus primitive with its arguments and its answer (R91), a `Wait`, or an `emit`. -/
inductive Event where
  | opened (bus : Nat) (ok : Bool)
  | read (dev : Nat) (reg : Byte) (answer : Answer)
  | write (dev : Nat) (reg : Byte) (value : Byte) (ok : Bool)
  | close
  | wait (ms : NumQ)
  | emit (record : Vec6)
deriving DecidableEq, Repr

end Sys2Proof
end

