-- ==== Sys2Proof/WellFormed.lean ====
section
/-!
DEFINITION. What is well-formed: a command word (R81, R82, R84) and an instruction. The test that admits a
configuration (R8) stands with its record in Config.lean.
-/

namespace Sys2Proof

/-- R81: bits 7:4 of a command word must be 0000. -/
def wordZeroFieldOk (w : Byte) : Bool := decide (w.toNat / 16 = 0)

/-- R82, R84: the operation code, bits 3:0, is one of the six allocated. -/
def wordOpAllocated (w : Byte) : Bool := decide (1 ≤ w.toNat % 16) && decide (w.toNat % 16 ≤ 6)

/-- A command word R82 lists. The other 250 words are illegal (R84). -/
def wordLegal (w : Byte) : Bool := wordZeroFieldOk w && wordOpAllocated w

/-- An instruction is well-formed. No command has an operand, a register field, an immediate or a mode field (R81), so
each of the six is. -/
def Instr.wellFormed : Instr → Bool
  | .init => true
  | .poll => true
  | .read => true
  | .cal => true
  | .corr => true
  | .run => true

end Sys2Proof
end

