-- ==== Sys2Proof/Decode.lean ====
section
/-!
DEFINITION. The decoder of command words (R81, R82), total and rejecting by name, and after it the encoders: of command
words, of response words (R83), and the fields of the device's bytes (R87, R88).
-/

namespace Sys2Proof

/-- Why a command word is no command (R84). -/
inductive DecodeError where
  /-- Bits 7:4 are not 0000 (R81). -/
  | zeroField (w : Byte)
  /-- Bits 3:0 hold no allocated operation code (R82). -/
  | unallocatedOp (w : Byte)
deriving DecidableEq, Repr

/-- The `zero` field of format CMD: bits 7:4 (R81). -/
def cmdZero (w : Byte) : BitVec 4 := w.extractLsb' 4 4

/-- The `op` field of format CMD: bits 3:0 (R81). -/
def cmdOp (w : Byte) : BitVec 4 := w.extractLsb' 0 4

/-- R82: the operation an `op` code selects. -/
def opInstr (op : BitVec 4) : Option Instr :=
  match op with
  | 0b0001 => some .init
  | 0b0010 => some .poll
  | 0b0011 => some .read
  | 0b0100 => some .cal
  | 0b0101 => some .corr
  | 0b0110 => some .run
  | _ => none

/-- Decode one command word: always exactly one word, no mode (R82, R84, R85). -/
def decode (w : Byte) : Except DecodeError Instr :=
  if cmdZero w ≠ 0 then .error (.zeroField w)
  else
    match opInstr (cmdOp w) with
    | some i => .ok i
    | none => .error (.unallocatedOp w)

/-- The command word of an instruction (R82). -/
def encode : Instr → Byte
  | .init => 0x01
  | .poll => 0x02
  | .read => 0x03
  | .cal => 0x04
  | .corr => 0x05
  | .run => 0x06

/-- The instruction the decoder reads from the bits `w` of an opcode-table row of `nbits` bits: one byte, bit 0 its
least significant. Bits above the first byte make no command word. -/
def decodeTableWord (nbits w : Nat) : Option Instr :=
  let bits := w % 2 ^ nbits
  if bits < 256 then
    match decode (BitVec.ofNat 8 bits) with
    | .ok i => some i
    | .error _ => none
  else none

/-- The `code` field of a response, bits 2:0 (R83). -/
def RespCode.bits : RespCode → BitVec 3
  | .ok => 0
  | .fatal => 1
  | .refused => 2
  | .illegal => 3
  | .stopped => 4

/-- Format RESP (R83): bit 7 `rdy`, bits 6:3 zero, bits 2:0 `code`. -/
def respWord (rdy : Bool) (code : RespCode) : Byte :=
  BitVec.ofBool rdy ++ (0 : BitVec 4) ++ code.bits

/-- Format RCTRL, `scale`: bits 7:4 (R87). -/
def ctrlScale (b : Byte) : BitVec 4 := b.extractLsb' 4 4

/-- Format RCTRL, `rate`: bits 3:0 (R87). -/
def ctrlRate (b : Byte) : BitVec 4 := b.extractLsb' 0 4

/-- Format RSTAT, `acc_rdy`: bit 0 (R88). -/
def statusAccRdy (st : Byte) : Bool := st.getLsbD 0

/-- Format RSTAT, `gyr_rdy`: bit 1 (R88). -/
def statusGyrRdy (st : Byte) : Bool := st.getLsbD 1

end Sys2Proof
end

