-- ==== Sys2Proof/Machine/State.lean ====
section
/-!
DEFINITION. The state of the block (10_state.md), what its command port and its environment hold between steps, the
reasons a step can stop, and the state after reset. Plain data.
-/

namespace Sys2Proof.Machine

/-- The driver state register (R20). -/
inductive DState where
  /-- 0: after reset, the bus not opened. -/
  | uninitialized
  /-- 1: inside INIT, after the reset write and its settle wait. -/
  | reset
  /-- 2: inside INIT, after the control writes and the block-data-update write. -/
  | configured
  /-- 3: initialisation complete. -/
  | ready
  /-- 4: terminal, initialisation failed. -/
  | failed
  /-- 5: terminal, cancellation observed. -/
  | stopped
deriving DecidableEq, Repr

/-- What the host does in one step (R9, R10, R222): nothing, presents a command word, raises the cancel input, or
applies the reset input with the configuration it supplies (R240). -/
inductive HostMove where
  | quiet
  | present (w : Byte)
  | cancel
  | reset (cfg : CfgFields)
deriving DecidableEq, Repr

/-- Why the machine stops with a fault. -/
inductive Fault where
  /-- A bus read while the handle is closed. Raised by `withHandle`, in POLL, READ, CAL and an iteration of RUN. The
  spec admits a `MemRead` only when `handle_open = 1` (R54, R57) and gives such a read no effect. Safe: no reachable
  state raises it. -/
  | busHandleClosed
  /-- CAL polled as often as R165 bounds it without reaching either exit. Raised by `execCal`. Safe: no state raises
  it (`calLoop_ends`), since R8 admits no configuration with `TARGET_SAMPLES = 0`. -/
  | calibrationUnbounded
deriving DecidableEq, Repr

/-- Why the model gives no meaning. -/
inductive Refusal where
  /-- An instruction that has no meaning yet. Raised by an arm of `exec`. Safe. -/
  | notModelled (mnemonic : String)
  /-- The environment supplies a configuration R8 does not admit. Raised by `applyReset`. Safe: R8 has a model refuse
  it. -/
  | configNotAdmitted
  /-- The reset input while an operation runs. Raised by `applyReset`. Safe: R240 leaves it unspecified, and U5 of
  93_implementation_defined.md has a model refuse it. -/
  | resetDuringOperation
deriving DecidableEq, Repr

/-- The whole machine. Registers and flags of the block first, then its command port, then the model's view of its
environment. -/
structure State where
  /-- `dstate` (R20). -/
  dstate : DState
  /-- `handle_open` (R30). -/
  handleOpen : Bool
  /-- `rdy`: what the last `PollReady()` returned (R30). -/
  rdy : Bool
  /-- `s_valid` (R23, R30). -/
  sValid : Bool
  /-- `o_valid` (R24, R30). -/
  oValid : Bool
  /-- `c_valid` (R25, R30). -/
  cValid : Bool
  /-- `cancel_pending` (R30, R210). -/
  cancelPending : Bool
  /-- `S[0..5]` (R23). While `sValid` is false it holds no value of the block's, and no operation reads it (R26). -/
  regS : Vec6
  /-- `O[0..5]` (R24). While `oValid` is false it holds no value of the block's, and no operation reads it (R26). -/
  regO : Vec6
  /-- `C[0..5]` (R25). While `cValid` is false it holds no value of the block's, and no operation reads it (R26). -/
  regC : Vec6
  /-- `SUM[0..5]` (R28). -/
  regSUM : Vec6
  /-- `CNT` (R29). -/
  cnt : Nat
  /-- `STALL` (R29). -/
  stall : Nat
  /-- `exit_status` (R32). -/
  exitStatus : BitVec 8
  /-- `fail_step` (R32). -/
  failStep : BitVec 3
  /-- `OUT`, oldest record first (R34). -/
  out : List Vec6
  /-- `TRACE`, oldest event first (R37). -/
  trace : List Event
  /-- `CFG` (R31). -/
  cfg : Cfg
  /-- RUN has been accepted and has not yet responded (R184). INIT, POLL, READ, CAL and CORR respond within the step
  that accepts them. -/
  running : Bool
  /-- Command words presented and not yet accepted, oldest first (R10, U12). DEDUCED, safe (assumption 10). -/
  port : List Byte
  /-- The response to the word last accepted (R83); none while it runs, and before the first.
  DESIGN CHOICE, safe (assumption 11). -/
  response : Option Byte
  /-- What the host does in the coming steps, one move a step; when it has run out the host does nothing (R222).
  DESIGN CHOICE, unsafe for a run longer than the list (assumption 9). -/
  script : List HostMove
  /-- What the bus answers to the coming primitives, in order; when it has run out the answers are free (R58). -/
  answers : List Answer
  /-- How many answers have been drawn: the argument of the free answers (R58). -/
  draws : Nat
deriving DecidableEq, Repr

/-- R38, R240: the block after reset with configuration `c`. Where R38 says 'no value' or 'unspecified' (`S`, `O`, `C`,
`SUM`, `CNT`, `STALL`) the model holds zeros, which no operation reads. DESIGN CHOICE, unsafe (assumption 3). The
last six fields are the model's own (assumption 13). -/
def State.resetWith (c : Cfg) : State where
  dstate := .uninitialized
  handleOpen := false
  rdy := false
  sValid := false
  oValid := false
  cValid := false
  cancelPending := false
  regS := Vec6.zero
  regO := Vec6.zero
  regC := Vec6.zero
  regSUM := Vec6.zero
  cnt := 0
  stall := 0
  exitStatus := 0
  failStep := 0
  out := []
  trace := []
  cfg := c
  running := false
  port := []
  response := none
  script := []
  answers := []
  draws := 0

/-- The machine right after reset (R38), with the configuration the environment supplies. -/
def State.reset : State := State.resetWith Config.cfg

end Sys2Proof.Machine
end

