-- ==== Sys2Proof/Machine/Flags.lean ====
section
/-!
DEFINITION. The conditions the block computes: data-ready (R88, R132), the deadzone test (R180, R181) and the stall test
(R164). The block has no arithmetic condition codes (R30).
-/

namespace Sys2Proof.Machine

/-- The status byte `PollReady()` works on: a failed read is taken as 0 (R132). -/
def statusByte : Answer → Byte
  | .fail => 0
  | .ok b => b

/-- `(st & 0x03) != 0` (R132). -/
def statusReady (st : Byte) : Bool := st &&& 0x03 != 0

/-- `abs` in `Num` (R13). -/
def absNum (x : NumQ) : NumQ := if x < 0 then -x else x

/-- `abs(d) < THRESHOLD`, strict (R180, R181). -/
def inDeadzone (threshold d : NumQ) : Bool := decide (absNum d < threshold)

/-- `STALL > STALL_LIMIT`, tested after the increment (R164, 90_conflicts.md C1). -/
def stalledOut (stall limit : Nat) : Bool := decide (stall > limit)

/-- `CNT == TARGET_SAMPLES` (R160). -/
def targetReached (cnt target : Nat) : Bool := cnt == target

end Sys2Proof.Machine
end

