-- ==== Sys2Proof/Machine/Ops.lean ====
section
/-!
DEFINITION. The shared operations: the bus primitives over the oracle (20_memory.md), TRACE and OUT, the response, the
two ways into a terminal state (R203, R211), and the acceptance of a command (R205).
-/

namespace Sys2Proof.Machine

/-! ### TRACE, OUT, response -/

/-- Append one event to TRACE (R37). -/
def State.record (s : State) (e : Event) : State := { s with trace := s.trace ++ [e] }

/-- `respond(code)` with `rdy` in bit 7 (R14, R83). -/
def State.respond (s : State) (rdy : Bool) (code : RespCode) : State :=
  { s with response := some (respWord rdy code) }

/-- `emit(v)`: append one record to OUT (R34), and to TRACE (R37). -/
def State.emit (s : State) (v : Vec6) : State :=
  { s with out := s.out ++ [v], trace := s.trace ++ [.emit v] }

/-- `Wait(t)`: changes nothing but TRACE (R247). -/
def State.wait (s : State) (ms : NumQ) : State := s.record (.wait ms)

/-! ### The oracle (R58) -/

/-- The answer the bus gives to the next primitive: the script's next, or a free one. -/
def State.nextAnswer (s : State) : Answer :=
  match s.answers with
  | [] => Config.freeAnswer s.draws
  | a :: _ => a

/-- The state after an answer was drawn. -/
def State.drawn (s : State) : State := { s with answers := s.answers.tail, draws := s.draws + 1 }

/-! ### Bus primitives (R53 to R56) -/

/-- `Open(BUS_NUM)`: `handle_open <- 1` on `OK` (R53). -/
def busOpen (s : State) : Bool × State :=
  let ok := s.nextAnswer.isOk
  (ok, { s.drawn.record (.opened s.cfg.busNum ok) with handleOpen := s.handleOpen || ok })

/-- `MemRead(reg, 1)` on the device `DEV_ADDR`: a byte or `FAIL` (R54). -/
def memRead (reg : Byte) (s : State) : Answer × State :=
  (s.nextAnswer, s.drawn.record (.read s.cfg.devAddr reg s.nextAnswer))

/-- `MemWrite(reg, 1, v)` on the device `DEV_ADDR`: `OK` or `FAIL` (R55). -/
def memWrite (reg v : Byte) (s : State) : Bool × State :=
  let ok := s.nextAnswer.isOk
  (ok, s.drawn.record (.write s.cfg.devAddr reg v ok))

/-- `Close()` if the handle is open (R56, R203, R211). It always succeeds. -/
def releaseHandle (s : State) : State :=
  if s.handleOpen then { s.record .close with handleOpen := false } else s

/-- An operation that reads the bus, admitted while the handle is open (R54, R57). No read closes the handle, so one
test at its start covers every read it issues. DEDUCED, safe (assumption 16). -/
def withHandle (s : State) (op : State → Host.Outcome State Fault Refusal) : Host.Outcome State Fault Refusal :=
  if s.handleOpen then op s else .fault .busHandleClosed

/-! ### Entering a terminal state -/

/-- `raise Fatal(k)`: the initialisation-failure trap (R203). -/
def fatal (k : BitVec 3) (s : State) : State :=
  { releaseHandle s with failStep := k, exitStatus := 1, dstate := .failed }.respond false .fatal

/-- Taking the cancellation (R211). A RUN in progress ends with it (R184). -/
def takeCancel (s : State) : State :=
  { releaseHandle s with exitStatus := 0, dstate := .stopped, running := false }.respond false .stopped

/-! ### Acceptance of a command (R205) -/

/-- `FAILED` or `STOPPED`: the end of a session (R11, R20). -/
def State.terminal (s : State) : Bool :=
  match s.dstate with
  | .uninitialized => false
  | .reset => false
  | .configured => false
  | .ready => false
  | .failed => true
  | .stopped => true

/-- The table `Admit` of R205. -/
def admits (i : Instr) (s : State) : Bool :=
  match i with
  | .init => s.dstate == .uninitialized
  | .poll => s.dstate == .ready
  | .read => s.dstate == .ready
  | .cal => s.dstate == .ready && !s.oValid
  | .corr => s.dstate == .ready && s.sValid && s.oValid
  | .run => s.dstate == .ready && s.oValid

/-- Steps 2 to 5 of R205 for a legal command word: refused in a terminal state, the cancellation taken, refused if not
admitted (R206), else performed. Step 1 is the decoder's. -/
def accept (i : Instr) (perform : State → Host.Outcome State Fault Refusal) (s : State) :
    Host.Outcome State Fault Refusal :=
  if s.terminal then .next (s.respond false .refused)
  else if s.cancelPending then .next (takeCancel s)
  else if admits i s then perform s
  else .next (s.respond false .refused)

end Sys2Proof.Machine
end

