-- ==== Sys2Proof/Machine/Operands.lean ====
section
/-!
DEFINITION. The Register Codec (40_codec.md): how a sample's operand is addressed, read from the bus, assembled and
scaled.
-/

namespace Sys2Proof.Machine

/-- `AxisBase(i)`: the base address of the register pair of axis `i` (R52). -/
def axisBase (c : Cfg) : Axis → Byte
  | .ax => c.accelBase
  | .ay => c.accelBase + 2
  | .az => c.accelBase + 4
  | .gx => c.gyroBase
  | .gy => c.gyroBase + 2
  | .gz => c.gyroBase + 4

/-- `Factor(i)`: the scale factor of axis `i` (R112). -/
def factor (c : Cfg) : Axis → NumQ
  | .ax => c.accelFactor
  | .ay => c.accelFactor
  | .az => c.accelFactor
  | .gx => c.gyroFactor
  | .gy => c.gyroFactor
  | .gz => c.gyroFactor

/-- `sext_16(v)` (R12). -/
def sext16 (v : Nat) : Int := if v < 0x8000 then (v : Int) else (v : Int) - 65536

/-- `(hi << 8) | lo`, 0..65535 (R90, R110). -/
def pair16 (lo hi : Byte) : Nat := hi.toNat <<< 8 ||| lo.toNat

/-- `Decode16(lo, hi)` (R110). -/
def decode16 (lo hi : Byte) : Int := sext16 (pair16 lo hi)

/-- `Scale(n, f)`: exact in `Num` (R111). -/
def scale (n : Int) (f : NumQ) : NumQ := (n : NumQ) * f

/-- `ReadAxis(i)`: low byte, then high byte, decoded and scaled; 0.0 for the axis if either read fails (R113). -/
def readAxis (i : Axis) (s : State) : NumQ × State :=
  let b := axisBase s.cfg i
  match memRead b s with
  | (.fail, s1) =>
    if s1.cfg.skipHighAfterLowFail then (0, s1) else (0, (memRead (b + 1) s1).2)
  | (.ok lo, s1) =>
    match memRead (b + 1) s1 with
    | (.fail, s2) => (0, s2)
    | (.ok hi, s2) => (scale (decode16 lo hi) (factor s.cfg i), s2)

end Sys2Proof.Machine
end

