-- ==== Sys2Proof/Machine/Driver.lean ====
section
/-!
DEFINITION. The Sensor Driver (41_driver.md): `PollReady()` and `ReadSample()`, and the commands INIT, POLL and READ.
-/

namespace Sys2Proof.Machine

/-- `PollReady()`: one status read; sets `rdy` to what it returns (R132). -/
def pollReady (s : State) : Bool × State :=
  match memRead s.cfg.regStatus s with
  | (a, s1) => (statusReady (statusByte a), { s1 with rdy := statusReady (statusByte a) })

/-- The six axes read in index order (R134). -/
def readAxes (s : State) : Vec6 × State :=
  match readAxis .ax s with
  | (ax, s1) =>
    match readAxis .ay s1 with
    | (ay, s2) =>
      match readAxis .az s2 with
      | (az, s3) =>
        match readAxis .gx s3 with
        | (gx, s4) =>
          match readAxis .gy s4 with
          | (gy, s5) =>
            match readAxis .gz s5 with
            | (gz, s6) => ({ ax, ay, az, gx, gy, gz }, s6)

/-- `ReadSample()`: `S` written all six together, `s_valid` set (R134). -/
def readSample (s : State) : Vec6 × State :=
  match readAxes s with
  | (v, s1) => (v, { s1 with regS := v, sValid := true })

/-! ### INIT (R130) -/

/-- One write of INIT: on `FAIL` the trap with step `k`, on `OK` the rest of the sequence. -/
def initWrite (k : BitVec 3) (reg v : Byte) (rest : State → State) (s : State) : State :=
  match memWrite reg v s with
  | (false, s1) => fatal k s1
  | (true, s1) => rest s1

/-- After step 3: `CONFIGURED`, the second settle wait, `READY`, `respond(OK)`. -/
def initFinish (s : State) : State :=
  { ({ s with dstate := .configured }).wait s.cfg.tSettle2 with dstate := .ready }.respond false .ok

/-- Step 3: enable block data update (R86). -/
def initEnable (s : State) : State := initWrite 4 s.cfg.regResetCfg s.cfg.bduCmd initFinish s

/-- Step 2b: the gyroscope control register (R87). -/
def initGyro (s : State) : State := initWrite 3 s.cfg.regCtrlGyro s.cfg.selByte initEnable s

/-- Step 2a: the accelerometer control register (R87). -/
def initAccel (s : State) : State := initWrite 2 s.cfg.regCtrlAccel s.cfg.selByte initGyro s

/-- After step 1: the settle wait, then `RESET` (R130, R248). -/
def initSettle (s : State) : State := initAccel { s.wait s.cfg.tSettle1 with dstate := .reset }

/-- Step 1: the software reset of the device (R63, R86). -/
def initReset (s : State) : State := initWrite 1 s.cfg.regResetCfg s.cfg.resetCmd initSettle s

/-- `initialize()` from step 0, `Open` (R130). -/
def initSequence (s : State) : State :=
  match busOpen s with
  | (false, s1) => fatal 0 s1
  | (true, s1) => initReset s1

/-- INIT (R130). -/
def execInit (s : State) : Host.Outcome State Fault Refusal :=
  accept .init (fun t => .next (initSequence t)) s

/-! ### POLL and READ (R133, R135) -/

/-- `r = PollReady(); respond(OK, rdy = r)`. -/
def pollCommand (s : State) : State :=
  match pollReady s with
  | (r, s1) => s1.respond r .ok

/-- POLL (R133). -/
def execPoll (s : State) : Host.Outcome State Fault Refusal :=
  accept .poll (fun t => withHandle t fun u => .next (pollCommand u)) s

/-- `ReadSample(); respond(OK)`. -/
def readCommand (s : State) : State := (readSample s).2.respond false .ok

/-- READ (R135). -/
def execRead (s : State) : Host.Outcome State Fault Refusal :=
  accept .read (fun t => withHandle t fun u => .next (readCommand u)) s

end Sys2Proof.Machine
end

