-- ==== Sys2Proof/Machine/Calibration.lean ====
section
/-!
DEFINITION. The Calibration Engine (42_calibration.md): the command CAL.
-/

namespace Sys2Proof.Machine

/-- How one pass of CAL's loop leaves it (R160). -/
inductive CalExit where
  | again | done | stalled
deriving DecidableEq, Repr

/-- `SUM[0..5] <- 0.0; CNT <- 0; STALL <- 0` (R160). -/
def calStart (s : State) : State := { s with regSUM := Vec6.zero, cnt := 0, stall := 0 }

/-- `SUM[i] + v[i]` for every axis (R160, R161). -/
def addSample (sum v : Vec6) : Vec6 := Vec6.ofFn fun i => sum.get i + v.get i

/-- One pass of CAL's loop (R160): a ready tick sums a sample and clears `STALL`, an unready poll counts in `STALL`. -/
def calPass (s : State) : CalExit × State :=
  match pollReady s with
  | (true, s1) =>
    match readSample s1 with
    | (v, s2) =>
      let s3 := { s2 with regSUM := addSample s2.regSUM v, cnt := s2.cnt + 1, stall := 0 }
      (if targetReached s3.cnt s3.cfg.targetSamples then .done else .again, s3)
  | (false, s1) =>
    let s2 := { s1 with stall := s1.stall + 1 }
    (if stalledOut s2.stall s2.cfg.stallLimit then .stalled else .again, s2)

/-- CAL's loop, at most `fuel` passes. No `Wait` between passes (R166). DEDUCED, safe (assumption 17). -/
def calLoop : Nat → State → CalExit × State
  | 0, s => (.again, s)
  | fuel + 1, s =>
    match calPass s with
    | (.again, t) => calLoop fuel t
    | (.done, t) => (.done, t)
    | (.stalled, t) => (.stalled, t)

/-- The greatest number of passes one CAL makes (R165). -/
def calBound (c : Cfg) : Nat := c.targetSamples * (c.stallLimit + 1)

/-- The means, gravity taken from the vertical axis only (R162, R163). -/
def calOffsets (c : Cfg) (sum : Vec6) : Vec6 :=
  let m := Vec6.ofFn fun i => sum.get i / (c.targetSamples : NumQ)
  { m with az := m.az - c.gravity }

/-- The `done` exit (R160). -/
def calDone (s : State) : State :=
  { s with regO := calOffsets s.cfg s.regSUM, oValid := true }.respond false .ok

/-- The `stalled` exit: all offsets exactly 0.0 (R164, R204). -/
def calStalled (s : State) : State := { s with regO := Vec6.zero, oValid := true }.respond false .ok

/-- CAL from its first line to its response (R160). It always reaches one of its exits (R165). -/
def calCommand (s : State) : Host.Outcome State Fault Refusal :=
  match calLoop (calBound s.cfg) (calStart s) with
  | (.done, t) => .next (calDone t)
  | (.stalled, t) => .next (calStalled t)
  | (.again, _) => .fault .calibrationUnbounded

/-- CAL (R160). -/
def execCal (s : State) : Host.Outcome State Fault Refusal :=
  accept .cal (fun t => withHandle t calCommand) s

end Sys2Proof.Machine
end

