-- ==== Sys2Proof/Machine/Correction.lean ====
section
/-!
DEFINITION. The Live Correction Pipeline (43_correction.md): `Correct` and `Iterate()`, and the commands CORR and RUN.
-/

namespace Sys2Proof.Machine

/-- One lane of `Correct`: offset subtraction, then the deadzone (R180, R182). -/
def correctLane (threshold s o : NumQ) : NumQ :=
  let d := s - o
  if inDeadzone threshold d then 0 else d

/-- `Correct(s, o)` on all six lanes (R180). -/
def correct (threshold : NumQ) (s o : Vec6) : Vec6 := Vec6.ofFn fun i => correctLane threshold (s.get i) (o.get i)

/-- `c = Correct(v, O)`, written to `C` and emitted (R183, R185). -/
def correctAndEmit (v : Vec6) (s : State) : State :=
  let c := correct s.cfg.threshold v s.regO
  { s with regC := c, cValid := true }.emit c

/-- CORR's body: correct `S` (R183). -/
def corrCommand (s : State) : State := (correctAndEmit s.regS s).respond false .ok

/-- CORR (R183). -/
def execCorr (s : State) : Host.Outcome State Fault Refusal :=
  accept .corr (fun t => .next (corrCommand t)) s

/-- `Iterate()`: one iteration of the live loop (R185). -/
def iterate (s : State) : State :=
  match pollReady s with
  | (true, s1) =>
    match readSample s1 with
    | (v, s2) => correctAndEmit v s2
  | (false, s1) => s1.wait s1.cfg.tPoll

/-- RUN from the top of an iteration: the cancellation if it is pending, else one `Iterate()`, after which the loop goes
on in the next step (R184). -/
def runIteration (s : State) : Host.Outcome State Fault Refusal :=
  if s.cancelPending then .next (takeCancel s)
  else withHandle s fun t => .next (iterate t)

/-- RUN (R184): accepted, it runs until the step that takes the cancellation. -/
def execRun (s : State) : Host.Outcome State Fault Refusal :=
  accept .run (fun t => runIteration { t with running := true }) s

end Sys2Proof.Machine
end

