-- ==== Sys2Proof/Machine/Dispatch.lean ====
section
/-!
DEFINITION. One arm per command, each a call of its meaning.
-/

namespace Sys2Proof.Machine

def exec (i : Instr) (s : State) : Host.Outcome State Fault Refusal :=
  match i with
  | .init => Sys2Proof.Machine.execInit s
  | .poll => Sys2Proof.Machine.execPoll s
  | .read => Sys2Proof.Machine.execRead s
  | .cal => Sys2Proof.Machine.execCal s
  | .corr => Sys2Proof.Machine.execCorr s
  | .run => Sys2Proof.Machine.execRun s

end Sys2Proof.Machine
end

