-- ==== Sys2Proof/Machine/Port.lean ====
section
/-!
DEFINITION. The host's side of the block (00_scope.md R9, R10; 60_exceptions.md R210, R222): the host's moves, the
command port, the reset input, and what the host may read.
-/

namespace Sys2Proof.Machine

/-- The reset input with the configuration the environment supplies (R240). R8: a configuration that is not admitted is
refused. U5: reset while an operation runs is refused. The script and the oracle are the environment's and go on.
DESIGN CHOICE (assumptions 12, 13, 14). -/
def applyReset (c : CfgFields) (s : State) : Host.Outcome State Fault Refusal :=
  if s.running then .refused .resetDuringOperation
  else if h : c.isAdmitted = true then
    .next { State.resetWith { c with ok := h } with script := s.script, answers := s.answers, draws := s.draws }
  else .refused .configNotAdmitted

/-- One move of the host. Raising the cancel input sets the latch (R210); a presented word waits in the port until the
block is idle (U12). -/
def applyMove (m : HostMove) (s : State) : Host.Outcome State Fault Refusal :=
  match m with
  | .quiet => .next s
  | .present w => .next { s with port := s.port ++ [w] }
  | .cancel => .next { s with cancelPending := true }
  | .reset c => applyReset c s

/-- The host's part of a step: the next move of its script, or nothing. -/
def hostTurn (s : State) : Host.Outcome State Fault Refusal :=
  match s.script with
  | [] => .next s
  | m :: rest => applyMove m { s with script := rest }

/-- The word at the command port and the state once it has been taken from there, its response still to come. -/
def takeWord (s : State) : Option (Byte × State) :=
  match s.port with
  | [] => none
  | w :: rest => some (w, { s with port := rest, response := none })

/-- An illegal command word changes nothing and is answered ILLEGAL (R84, R207). -/
def respondIllegal (s : State) : State := s.respond false .illegal

/-- The word `w` of `nbits` bits waiting at the command port, the block idle, and the host doing nothing in the coming
step. DESIGN CHOICE, safe (assumption 15). -/
def placeWord (s : State) (nbits w : Nat) : State :=
  { s with port := BitVec.ofNat 8 (w % 2 ^ nbits) :: s.port, script := .quiet :: s.script, running := false }

/-! ### What the host may read (R26, R32, R222) -/

/-- `dstate` as the 3-bit status register (R20, R32). -/
def DState.code : DState → BitVec 3
  | .uninitialized => 0
  | .reset => 1
  | .configured => 2
  | .ready => 3
  | .failed => 4
  | .stopped => 5

/-- `S` as the host reads it: no value while `s_valid` is 0. -/
def hostReadS (s : State) : Option Vec6 := if s.sValid then some s.regS else none

/-- `O` as the host reads it: no value while `o_valid` is 0. -/
def hostReadO (s : State) : Option Vec6 := if s.oValid then some s.regO else none

/-- `C` as the host reads it: no value while `c_valid` is 0. -/
def hostReadC (s : State) : Option Vec6 := if s.cValid then some s.regC else none

/-- `exit_status`, meaningful only in a terminal state. -/
def hostReadExit (s : State) : Option (BitVec 8) := if s.terminal then some s.exitStatus else none

/-- `fail_step`, meaningful only in `FAILED`. -/
def hostReadFailStep (s : State) : Option (BitVec 3) := if s.dstate == .failed then some s.failStep else none

end Sys2Proof.Machine
end

