-- ==== Sys2Proof/Machine/Step.lean ====
section
/-!
DEFINITION. One step: the host's move, then the block's. The block's is one iteration of a RUN in progress, or the
acceptance of the next command word (R205), or, with no word at the port, nothing.
-/

namespace Sys2Proof.Machine

/-- The block's part of a step. -/
def blockTurn (s : State) : Host.Outcome State Fault Refusal :=
  if s.running then runIteration s
  else
    match takeWord s with
    | none => .next s
    | some (w, t) =>
      match decode w with
      | .ok i => exec i t
      | .error _ => .next (respondIllegal t)

/-- One step of the machine. DEDUCED, safe (assumption 1). -/
def step (s : State) : Host.Outcome State Fault Refusal :=
  match hostTurn s with
  | .next t => blockTurn t
  | .fault r => .fault r
  | .refused r => .refused r

/-- `s` with an opcode-table word at the command port, so that the next step accepts it. -/
def State.withFetchWord (s : State) (nbits w : Nat) : State := placeWord s nbits w

end Sys2Proof.Machine
end

