-- ==== Sys2Proof/Safety.lean ====
section
/-!
DEFINITION. The terms the claims use: the invariant of the block between steps, the traffic it may put on the bus, the
state as an observer of valid registers sees it, and the traffic of scripted reads and ticks.
-/

namespace Sys2Proof.Machine

/-! ### When a command is performed -/

/-- `READY` with no cancellation pending and the handle open: a command that reads the bus is performed if its row of
R205's table admits it (R57, R205). -/
def canServe (s : State) : Prop := s.dstate = .ready ∧ s.cancelPending = false ∧ s.handleOpen = true

/-- The table `Admit` of R205, row by row. -/
def admitTable (s : State) : Instr → Prop
  | .init => s.dstate = .uninitialized
  | .poll => s.dstate = .ready
  | .read => s.dstate = .ready
  | .cal => s.dstate = .ready ∧ s.oValid = false
  | .corr => s.dstate = .ready ∧ s.sValid = true ∧ s.oValid = true
  | .run => s.dstate = .ready ∧ s.oValid = true

/-- The host does nothing in the coming step. -/
def hostQuiet (s : State) : Prop := s.script = [] ∨ ∃ rest, s.script = .quiet :: rest

/-- The host does not apply the reset input in the coming step. -/
def noReset (s : State) : Prop := ∀ c rest, s.script ≠ .reset c :: rest

/-! ### The invariant between steps -/

/-- The records TRACE says were emitted, in order (R34, R37). -/
def emitted (tr : List Event) : List Vec6 :=
  tr.filterMap fun e =>
    match e with
    | .emit v => some v
    | .opened _ _ => none
    | .read _ _ _ => none
    | .write _ _ _ _ => none
    | .close => none
    | .wait _ => none

/-- Every lane is 0 or has magnitude at least `threshold` (R180, R186 (b)). -/
def outsideDeadzone (threshold : NumQ) (v : Vec6) : Prop := ∀ i : Axis, v.get i = 0 ∨ threshold ≤ |v.get i|

/-- The events of an INIT that succeeds (R130, V-INIT-1). -/
def initTrace (c : Cfg) : List Event :=
  [.opened c.busNum true, .write c.devAddr c.regResetCfg c.resetCmd true, .wait c.tSettle1,
    .write c.devAddr c.regCtrlAccel c.selByte true, .write c.devAddr c.regCtrlGyro c.selByte true,
    .write c.devAddr c.regResetCfg c.bduCmd true, .wait c.tSettle2]

/-- The events of an INIT that fails at step `k` (R130, R203, V-INIT-2 to V-INIT-6): the failing primitive is the last
but for the `Close` of an open handle. -/
def initFailTrace (c : Cfg) : Nat → List Event
  | 0 => [.opened c.busNum false]
  | 1 => [.opened c.busNum true, .write c.devAddr c.regResetCfg c.resetCmd false, .close]
  | 2 => (initTrace c).take 3 ++ [.write c.devAddr c.regCtrlAccel c.selByte false, .close]
  | 3 => (initTrace c).take 4 ++ [.write c.devAddr c.regCtrlGyro c.selByte false, .close]
  | _ => (initTrace c).take 5 ++ [.write c.devAddr c.regResetCfg c.bduCmd false, .close]

/-- What holds of the block between two steps. -/
structure Inv (s : State) : Prop where
  /-- `RESET` and `CONFIGURED` are held only while INIT runs (R20, 90_conflicts.md C2). -/
  between : s.dstate ≠ .reset ∧ s.dstate ≠ .configured
  /-- The handle is open exactly in `READY` (R53, R203, R211). -/
  handle : s.handleOpen = true ↔ s.dstate = .ready
  /-- `exit_status` is 1 in `FAILED` and 0 elsewhere (R32, R203, R211). -/
  exit : s.exitStatus = if s.dstate = .failed then 1 else 0
  /-- `fail_step` is a step of INIT in `FAILED` and 0 elsewhere (R32, R203). -/
  failStep : if s.dstate = .failed then s.failStep.toNat ≤ 4 else s.failStep = 0
  /-- RUN goes on only in `READY` with the offsets valid, its response still to come (R184, R205). -/
  live : s.running = true → s.dstate = .ready ∧ s.oValid = true ∧ s.response = none
  /-- Before INIT and after a failed one nothing is valid (R38, R130). -/
  noData : s.dstate = .uninitialized ∨ s.dstate = .failed → s.sValid = false ∧ s.oValid = false ∧ s.cValid = false
  /-- A correction needs a sample and offsets (R183, R185). -/
  corrected : s.cValid = true → s.sValid = true ∧ s.oValid = true
  /-- The ranges of `CNT` and `STALL` (R29). -/
  counters : s.cnt ≤ s.cfg.targetSamples ∧ s.stall ≤ s.cfg.stallLimit + 1
  /-- Nothing has been issued before INIT (R38, R130). -/
  fresh : s.dstate = .uninitialized → s.trace = []
  /-- `READY` is reached only through the whole of INIT (R130, R242, R250). -/
  initialised : s.dstate = .ready → initTrace s.cfg <+: s.trace

/-- What holds of the output between two steps. -/
structure OutInv (s : State) : Prop where
  /-- OUT is what TRACE says was emitted (R34, R37). -/
  traced : s.out = emitted s.trace
  /-- `C` is valid exactly when a record was emitted (R25, R34). -/
  valid : s.cValid = true ↔ s.out ≠ []
  /-- `C` holds the last record (R25, R92). -/
  latest : s.cValid = true → s.out.getLast? = some s.regC
  /-- Every record of OUT is outside the deadzone (R181, R186 (b)). -/
  filtered : ∀ v ∈ s.out, outsideDeadzone s.cfg.threshold v

/-! ### Bus traffic -/

/-- The transactions the block can issue (R136, R51), and the waits it takes (R217). -/
def eventAllowed (c : Cfg) : Event → Prop
  | .opened bus _ => bus = c.busNum
  | .read dev reg _ =>
    dev = c.devAddr ∧ (reg = c.regStatus ∨ ∃ i : Axis, reg = axisBase c i ∨ reg = axisBase c i + 1)
  | .write dev reg v _ =>
    dev = c.devAddr ∧
      ((reg = c.regResetCfg ∧ (v = c.resetCmd ∨ v = c.bduCmd)) ∨
        ((reg = c.regCtrlAccel ∨ reg = c.regCtrlGyro) ∧ v = c.selByte))
  | .close => True
  | .wait t => t = c.tSettle1 ∨ t = c.tSettle2 ∨ t = c.tPoll
  | .emit _ => True

/-- Where the bus handle is in the course of a session. -/
inductive HandlePhase where
  | unopened | open | closed
deriving DecidableEq, Repr

/-- One event's effect on the handle; none where R53 to R57 do not admit the event: an `Open` after the first, a read
or a write or a `Close` with the handle not open. -/
def HandlePhase.after (p : HandlePhase) (e : Event) : Option HandlePhase :=
  match e with
  | .opened _ ok => if p = .unopened then some (if ok then .open else .closed) else none
  | .read _ _ _ => if p = .open then some p else none
  | .write _ _ _ _ => if p = .open then some p else none
  | .close => if p = .open then some .closed else none
  | .wait _ => some p
  | .emit _ => some p

/-- The handle after a trace; none if the trace issues a primitive that is not admitted. -/
def handlePhase (tr : List Event) : Option HandlePhase :=
  tr.foldlM HandlePhase.after .unopened

/-- What holds of the bus traffic between two steps: every transaction is one of R136's, the primitives are issued with
the handle open (R57), and `handle_open` says so. -/
structure BusInv (s : State) : Prop where
  allowed : ∀ e ∈ s.trace, eventAllowed s.cfg e
  phase : ∃ p, handlePhase s.trace = some p ∧ (s.handleOpen = true ↔ p = .open)

/-! ### What no operation reads -/

/-- The state with everything that holds no value (R26), or is not observable once CAL has ended (R28), set to zero. -/
def State.visible (s : State) : State :=
  { s with
    regS := if s.sValid then s.regS else Vec6.zero
    regO := if s.oValid then s.regO else Vec6.zero
    regC := if s.cValid then s.regC else Vec6.zero
    regSUM := Vec6.zero
    cnt := 0
    stall := 0 }

/-- Two outcomes that `view` cannot tell apart. -/
def sameOutcome (view : State → State) : Host.Outcome State Fault Refusal → Host.Outcome State Fault Refusal → Prop
  | .next s, .next t => view s = view t
  | .fault a, .fault b => a = b
  | .refused a, .refused b => a = b
  | .next _, .fault _ => False
  | .next _, .refused _ => False
  | .fault _, .next _ => False
  | .fault _, .refused _ => False
  | .refused _, .next _ => False
  | .refused _, .fault _ => False

/-! ### Reads, samples and ticks -/

/-- The state after the bus reads `evs`: nothing changed but TRACE and the oracle. -/
def State.afterReads (s : State) (evs : List Event) : State :=
  { s with
    trace := s.trace ++ evs
    answers := s.answers.drop evs.length
    draws := s.draws + evs.length }

/-- The answer the bus gives to the primitive `n` draws ahead (R58). -/
def State.answerAt (s : State) (n : Nat) : Answer := s.answers[n]?.getD (Config.freeAnswer (s.draws + n))

/-- The next primitives are answered by `as`, in order. -/
def State.answeredBy (s : State) (as : List Answer) : Prop := ∀ n a, as[n]? = some a → s.answerAt n = a

/-- A read of `REG_STATUS` (R132). -/
def isStatusRead (c : Cfg) (e : Event) : Prop := ∃ a, e = .read c.devAddr c.regStatus a

/-- How many of the events are reads of `REG_STATUS`: the executions of `PollReady()` (R132, R165). -/
def statusReads (c : Cfg) (evs : List Event) : Nat :=
  evs.countP fun e =>
    match e with
    | .read _ reg _ => reg == c.regStatus
    | .opened _ _ => false
    | .write _ _ _ _ => false
    | .close => false
    | .wait _ => false
    | .emit _ => false

/-- The event is a bus write (R55). -/
def isWrite : Event → Bool
  | .write _ _ _ _ => true
  | .read _ _ _ => false
  | .opened _ _ => false
  | .close => false
  | .wait _ => false
  | .emit _ => false

/-- A read of an output register (R113, R136). -/
def isSampleRead (c : Cfg) (e : Event) : Prop :=
  ∃ i a, e = .read c.devAddr (axisBase c i) a ∨ e = .read c.devAddr (axisBase c i + 1) a

/-- `t` is `s` but for what CAL's loop may change (R39, R160): TRACE and the oracle, by bus reads only, and `rdy`, `S`,
`s_valid`, `SUM`, `CNT` and `STALL`. -/
def calFrame (s t : State) : Prop :=
  ∃ evs : List Event, (∀ e ∈ evs, isStatusRead s.cfg e ∨ isSampleRead s.cfg e) ∧
    t = { s.afterReads evs with
      rdy := t.rdy, regS := t.regS, sValid := t.sValid, regSUM := t.regSUM, cnt := t.cnt, stall := t.stall }

/-- The six axes in bus order (R134). -/
def axes : List Axis := [.ax, .ay, .az, .gx, .gy, .gz]

/-- What the bus answers to one `ReadAxis` (R113): both bytes, a failed high read, or a failed low read (with the
answer to the high read, which is issued, and discarded, only if `SKIP_HIGH_AFTER_LOW_FAIL` is false). -/
inductive AxisRead where
  | both (lo hi : Byte)
  | highFail (lo : Byte)
  | lowFail (discarded : Answer)
deriving DecidableEq, Repr

/-- The answers of one `ReadAxis`, in order. -/
def AxisRead.answers (c : Cfg) : AxisRead → List Answer
  | .both lo hi => [.ok lo, .ok hi]
  | .highFail lo => [.ok lo, .fail]
  | .lowFail d => if c.skipHighAfterLowFail then [.fail] else [.fail, d]

/-- The reads of one `ReadAxis(i)`, in order. -/
def AxisRead.events (c : Cfg) (i : Axis) : AxisRead → List Event
  | .both lo hi => [.read c.devAddr (axisBase c i) (.ok lo), .read c.devAddr (axisBase c i + 1) (.ok hi)]
  | .highFail lo => [.read c.devAddr (axisBase c i) (.ok lo), .read c.devAddr (axisBase c i + 1) .fail]
  | .lowFail d =>
    if c.skipHighAfterLowFail then [.read c.devAddr (axisBase c i) .fail]
    else [.read c.devAddr (axisBase c i) .fail, .read c.devAddr (axisBase c i + 1) d]

/-- The two's-complement rule on a byte pair, in integers (R89, R110): bit 15 weighs -32768. -/
def twosComplement (lo hi : Byte) : Int :=
  (lo.toNat : Int) + 256 * (hi.toNat : Int) - (if 128 ≤ hi.toNat then 65536 else 0)

/-- What `ReadAxis(i)` returns: the decoded and scaled pair, or 0.0 (R113). -/
def AxisRead.value (c : Cfg) (i : Axis) : AxisRead → NumQ
  | .both lo hi => (twosComplement lo hi : NumQ) * factor c i
  | .highFail _ => 0
  | .lowFail _ => 0

/-- The answers of one `ReadSample()` whose axis `i` is answered by `r i`. -/
def sampleAnswers (c : Cfg) (r : Axis → AxisRead) : List Answer := axes.flatMap fun i => (r i).answers c

/-- The reads of one `ReadSample()`. -/
def sampleEvents (c : Cfg) (r : Axis → AxisRead) : List Event := axes.flatMap fun i => (r i).events c i

/-- The sample one `ReadSample()` returns. -/
def sampleValue (c : Cfg) (r : Axis → AxisRead) : Vec6 := Vec6.ofFn fun i => (r i).value c i

/-- An answer to the status read that makes `PollReady()` return false: a failure, or bits 1:0 both 0 (R132). -/
def answerUnready : Answer → Prop
  | .fail => True
  | .ok b => b.toNat % 4 = 0

/-- A stretch of CAL that ends in a ready tick: unready polls with their answers, then a ready status byte and the
sample read on it (R160). -/
structure Tick where
  unready : List Answer
  status : Byte
  reads : Axis → AxisRead

/-- The tick's polls are what it says, and its unready polls do not stall (R164). -/
def Tick.valid (c : Cfg) (k : Tick) : Prop :=
  (∀ a ∈ k.unready, answerUnready a) ∧ k.unready.length ≤ c.stallLimit ∧ k.status.toNat % 4 ≠ 0

/-- The answers of a tick, in order. -/
def Tick.answers (c : Cfg) (k : Tick) : List Answer := k.unready ++ .ok k.status :: sampleAnswers c k.reads

/-- The status reads of a stretch of polls. -/
def pollEvents (c : Cfg) (as : List Answer) : List Event := as.map fun a => .read c.devAddr c.regStatus a

/-- The reads of a tick, in order. -/
def Tick.events (c : Cfg) (k : Tick) : List Event :=
  pollEvents c (k.unready ++ [.ok k.status]) ++ sampleEvents c k.reads

/-- The samples of a calibration's ticks. -/
def tickSamples (c : Cfg) (ks : List Tick) : List Vec6 := ks.map fun k => sampleValue c k.reads

/-- The corrected record of sample `v` with offsets `o` (R180): per lane the difference, 0.0 if its magnitude is below
`threshold`. -/
def corrected (threshold : NumQ) (v o : Vec6) : Vec6 :=
  Vec6.ofFn fun i => if |v.get i - o.get i| < threshold then 0 else v.get i - o.get i

/-- The sum of axis `i` over samples. -/
def axisSum (vs : List Vec6) (i : Axis) : NumQ := (vs.map fun v => v.get i).sum

end Sys2Proof.Machine
end

