-- ==== Sys2Proof/Laws/State.lean ====
section
/-!
SUPPORT. What each named update of State leaves in each field: one lemma per field per update.
-/

namespace Sys2Proof.Machine

variable (s : State)

/-! ### record -/

@[simp] theorem State.record_dstate (e : Event) : (s.record e).dstate = s.dstate := rfl
@[simp] theorem State.record_handleOpen (e : Event) : (s.record e).handleOpen = s.handleOpen := rfl
@[simp] theorem State.record_rdy (e : Event) : (s.record e).rdy = s.rdy := rfl
@[simp] theorem State.record_sValid (e : Event) : (s.record e).sValid = s.sValid := rfl
@[simp] theorem State.record_oValid (e : Event) : (s.record e).oValid = s.oValid := rfl
@[simp] theorem State.record_cValid (e : Event) : (s.record e).cValid = s.cValid := rfl
@[simp] theorem State.record_cancelPending (e : Event) : (s.record e).cancelPending = s.cancelPending := rfl
@[simp] theorem State.record_regS (e : Event) : (s.record e).regS = s.regS := rfl
@[simp] theorem State.record_regO (e : Event) : (s.record e).regO = s.regO := rfl
@[simp] theorem State.record_regC (e : Event) : (s.record e).regC = s.regC := rfl
@[simp] theorem State.record_regSUM (e : Event) : (s.record e).regSUM = s.regSUM := rfl
@[simp] theorem State.record_cnt (e : Event) : (s.record e).cnt = s.cnt := rfl
@[simp] theorem State.record_stall (e : Event) : (s.record e).stall = s.stall := rfl
@[simp] theorem State.record_exitStatus (e : Event) : (s.record e).exitStatus = s.exitStatus := rfl
@[simp] theorem State.record_failStep (e : Event) : (s.record e).failStep = s.failStep := rfl
@[simp] theorem State.record_out (e : Event) : (s.record e).out = s.out := rfl
@[simp] theorem State.record_trace (e : Event) : (s.record e).trace = s.trace ++ [e] := rfl
@[simp] theorem State.record_cfg (e : Event) : (s.record e).cfg = s.cfg := rfl
@[simp] theorem State.record_running (e : Event) : (s.record e).running = s.running := rfl
@[simp] theorem State.record_port (e : Event) : (s.record e).port = s.port := rfl
@[simp] theorem State.record_response (e : Event) : (s.record e).response = s.response := rfl
@[simp] theorem State.record_script (e : Event) : (s.record e).script = s.script := rfl
@[simp] theorem State.record_answers (e : Event) : (s.record e).answers = s.answers := rfl
@[simp] theorem State.record_draws (e : Event) : (s.record e).draws = s.draws := rfl

/-! ### respond -/

@[simp] theorem State.respond_dstate (r : Bool) (c : RespCode) : (s.respond r c).dstate = s.dstate := rfl
@[simp] theorem State.respond_handleOpen (r : Bool) (c : RespCode) : (s.respond r c).handleOpen = s.handleOpen := rfl
@[simp] theorem State.respond_rdy (r : Bool) (c : RespCode) : (s.respond r c).rdy = s.rdy := rfl
@[simp] theorem State.respond_sValid (r : Bool) (c : RespCode) : (s.respond r c).sValid = s.sValid := rfl
@[simp] theorem State.respond_oValid (r : Bool) (c : RespCode) : (s.respond r c).oValid = s.oValid := rfl
@[simp] theorem State.respond_cValid (r : Bool) (c : RespCode) : (s.respond r c).cValid = s.cValid := rfl
@[simp] theorem State.respond_cancelPending (r : Bool) (c : RespCode) : (s.respond r c).cancelPending = s.cancelPending := rfl
@[simp] theorem State.respond_regS (r : Bool) (c : RespCode) : (s.respond r c).regS = s.regS := rfl
@[simp] theorem State.respond_regO (r : Bool) (c : RespCode) : (s.respond r c).regO = s.regO := rfl
@[simp] theorem State.respond_regC (r : Bool) (c : RespCode) : (s.respond r c).regC = s.regC := rfl
@[simp] theorem State.respond_regSUM (r : Bool) (c : RespCode) : (s.respond r c).regSUM = s.regSUM := rfl
@[simp] theorem State.respond_cnt (r : Bool) (c : RespCode) : (s.respond r c).cnt = s.cnt := rfl
@[simp] theorem State.respond_stall (r : Bool) (c : RespCode) : (s.respond r c).stall = s.stall := rfl
@[simp] theorem State.respond_exitStatus (r : Bool) (c : RespCode) : (s.respond r c).exitStatus = s.exitStatus := rfl
@[simp] theorem State.respond_failStep (r : Bool) (c : RespCode) : (s.respond r c).failStep = s.failStep := rfl
@[simp] theorem State.respond_out (r : Bool) (c : RespCode) : (s.respond r c).out = s.out := rfl
@[simp] theorem State.respond_trace (r : Bool) (c : RespCode) : (s.respond r c).trace = s.trace := rfl
@[simp] theorem State.respond_cfg (r : Bool) (c : RespCode) : (s.respond r c).cfg = s.cfg := rfl
@[simp] theorem State.respond_running (r : Bool) (c : RespCode) : (s.respond r c).running = s.running := rfl
@[simp] theorem State.respond_port (r : Bool) (c : RespCode) : (s.respond r c).port = s.port := rfl
@[simp] theorem State.respond_response (r : Bool) (c : RespCode) : (s.respond r c).response = some (respWord r c) := rfl
@[simp] theorem State.respond_script (r : Bool) (c : RespCode) : (s.respond r c).script = s.script := rfl
@[simp] theorem State.respond_answers (r : Bool) (c : RespCode) : (s.respond r c).answers = s.answers := rfl
@[simp] theorem State.respond_draws (r : Bool) (c : RespCode) : (s.respond r c).draws = s.draws := rfl

/-! ### emit -/

@[simp] theorem State.emit_dstate (v : Vec6) : (s.emit v).dstate = s.dstate := rfl
@[simp] theorem State.emit_handleOpen (v : Vec6) : (s.emit v).handleOpen = s.handleOpen := rfl
@[simp] theorem State.emit_rdy (v : Vec6) : (s.emit v).rdy = s.rdy := rfl
@[simp] theorem State.emit_sValid (v : Vec6) : (s.emit v).sValid = s.sValid := rfl
@[simp] theorem State.emit_oValid (v : Vec6) : (s.emit v).oValid = s.oValid := rfl
@[simp] theorem State.emit_cValid (v : Vec6) : (s.emit v).cValid = s.cValid := rfl
@[simp] theorem State.emit_cancelPending (v : Vec6) : (s.emit v).cancelPending = s.cancelPending := rfl
@[simp] theorem State.emit_regS (v : Vec6) : (s.emit v).regS = s.regS := rfl
@[simp] theorem State.emit_regO (v : Vec6) : (s.emit v).regO = s.regO := rfl
@[simp] theorem State.emit_regC (v : Vec6) : (s.emit v).regC = s.regC := rfl
@[simp] theorem State.emit_regSUM (v : Vec6) : (s.emit v).regSUM = s.regSUM := rfl
@[simp] theorem State.emit_cnt (v : Vec6) : (s.emit v).cnt = s.cnt := rfl
@[simp] theorem State.emit_stall (v : Vec6) : (s.emit v).stall = s.stall := rfl
@[simp] theorem State.emit_exitStatus (v : Vec6) : (s.emit v).exitStatus = s.exitStatus := rfl
@[simp] theorem State.emit_failStep (v : Vec6) : (s.emit v).failStep = s.failStep := rfl
@[simp] theorem State.emit_out (v : Vec6) : (s.emit v).out = s.out ++ [v] := rfl
@[simp] theorem State.emit_trace (v : Vec6) : (s.emit v).trace = s.trace ++ [.emit v] := rfl
@[simp] theorem State.emit_cfg (v : Vec6) : (s.emit v).cfg = s.cfg := rfl
@[simp] theorem State.emit_running (v : Vec6) : (s.emit v).running = s.running := rfl
@[simp] theorem State.emit_port (v : Vec6) : (s.emit v).port = s.port := rfl
@[simp] theorem State.emit_response (v : Vec6) : (s.emit v).response = s.response := rfl
@[simp] theorem State.emit_script (v : Vec6) : (s.emit v).script = s.script := rfl
@[simp] theorem State.emit_answers (v : Vec6) : (s.emit v).answers = s.answers := rfl
@[simp] theorem State.emit_draws (v : Vec6) : (s.emit v).draws = s.draws := rfl

/-! ### wait -/

@[simp] theorem State.wait_dstate (ms : NumQ) : (s.wait ms).dstate = s.dstate := rfl
@[simp] theorem State.wait_handleOpen (ms : NumQ) : (s.wait ms).handleOpen = s.handleOpen := rfl
@[simp] theorem State.wait_rdy (ms : NumQ) : (s.wait ms).rdy = s.rdy := rfl
@[simp] theorem State.wait_sValid (ms : NumQ) : (s.wait ms).sValid = s.sValid := rfl
@[simp] theorem State.wait_oValid (ms : NumQ) : (s.wait ms).oValid = s.oValid := rfl
@[simp] theorem State.wait_cValid (ms : NumQ) : (s.wait ms).cValid = s.cValid := rfl
@[simp] theorem State.wait_cancelPending (ms : NumQ) : (s.wait ms).cancelPending = s.cancelPending := rfl
@[simp] theorem State.wait_regS (ms : NumQ) : (s.wait ms).regS = s.regS := rfl
@[simp] theorem State.wait_regO (ms : NumQ) : (s.wait ms).regO = s.regO := rfl
@[simp] theorem State.wait_regC (ms : NumQ) : (s.wait ms).regC = s.regC := rfl
@[simp] theorem State.wait_regSUM (ms : NumQ) : (s.wait ms).regSUM = s.regSUM := rfl
@[simp] theorem State.wait_cnt (ms : NumQ) : (s.wait ms).cnt = s.cnt := rfl
@[simp] theorem State.wait_stall (ms : NumQ) : (s.wait ms).stall = s.stall := rfl
@[simp] theorem State.wait_exitStatus (ms : NumQ) : (s.wait ms).exitStatus = s.exitStatus := rfl
@[simp] theorem State.wait_failStep (ms : NumQ) : (s.wait ms).failStep = s.failStep := rfl
@[simp] theorem State.wait_out (ms : NumQ) : (s.wait ms).out = s.out := rfl
@[simp] theorem State.wait_trace (ms : NumQ) : (s.wait ms).trace = s.trace ++ [.wait ms] := rfl
@[simp] theorem State.wait_cfg (ms : NumQ) : (s.wait ms).cfg = s.cfg := rfl
@[simp] theorem State.wait_running (ms : NumQ) : (s.wait ms).running = s.running := rfl
@[simp] theorem State.wait_port (ms : NumQ) : (s.wait ms).port = s.port := rfl
@[simp] theorem State.wait_response (ms : NumQ) : (s.wait ms).response = s.response := rfl
@[simp] theorem State.wait_script (ms : NumQ) : (s.wait ms).script = s.script := rfl
@[simp] theorem State.wait_answers (ms : NumQ) : (s.wait ms).answers = s.answers := rfl
@[simp] theorem State.wait_draws (ms : NumQ) : (s.wait ms).draws = s.draws := rfl

/-! ### drawn -/

@[simp] theorem State.drawn_dstate : (s.drawn).dstate = s.dstate := rfl
@[simp] theorem State.drawn_handleOpen : (s.drawn).handleOpen = s.handleOpen := rfl
@[simp] theorem State.drawn_rdy : (s.drawn).rdy = s.rdy := rfl
@[simp] theorem State.drawn_sValid : (s.drawn).sValid = s.sValid := rfl
@[simp] theorem State.drawn_oValid : (s.drawn).oValid = s.oValid := rfl
@[simp] theorem State.drawn_cValid : (s.drawn).cValid = s.cValid := rfl
@[simp] theorem State.drawn_cancelPending : (s.drawn).cancelPending = s.cancelPending := rfl
@[simp] theorem State.drawn_regS : (s.drawn).regS = s.regS := rfl
@[simp] theorem State.drawn_regO : (s.drawn).regO = s.regO := rfl
@[simp] theorem State.drawn_regC : (s.drawn).regC = s.regC := rfl
@[simp] theorem State.drawn_regSUM : (s.drawn).regSUM = s.regSUM := rfl
@[simp] theorem State.drawn_cnt : (s.drawn).cnt = s.cnt := rfl
@[simp] theorem State.drawn_stall : (s.drawn).stall = s.stall := rfl
@[simp] theorem State.drawn_exitStatus : (s.drawn).exitStatus = s.exitStatus := rfl
@[simp] theorem State.drawn_failStep : (s.drawn).failStep = s.failStep := rfl
@[simp] theorem State.drawn_out : (s.drawn).out = s.out := rfl
@[simp] theorem State.drawn_trace : (s.drawn).trace = s.trace := rfl
@[simp] theorem State.drawn_cfg : (s.drawn).cfg = s.cfg := rfl
@[simp] theorem State.drawn_running : (s.drawn).running = s.running := rfl
@[simp] theorem State.drawn_port : (s.drawn).port = s.port := rfl
@[simp] theorem State.drawn_response : (s.drawn).response = s.response := rfl
@[simp] theorem State.drawn_script : (s.drawn).script = s.script := rfl
@[simp] theorem State.drawn_answers : (s.drawn).answers = s.answers.tail := rfl
@[simp] theorem State.drawn_draws : (s.drawn).draws = s.draws + 1 := rfl

/-! ### afterReads -/

@[simp] theorem State.afterReads_dstate (evs : List Event) : (s.afterReads evs).dstate = s.dstate := rfl
@[simp] theorem State.afterReads_handleOpen (evs : List Event) : (s.afterReads evs).handleOpen = s.handleOpen := rfl
@[simp] theorem State.afterReads_rdy (evs : List Event) : (s.afterReads evs).rdy = s.rdy := rfl
@[simp] theorem State.afterReads_sValid (evs : List Event) : (s.afterReads evs).sValid = s.sValid := rfl
@[simp] theorem State.afterReads_oValid (evs : List Event) : (s.afterReads evs).oValid = s.oValid := rfl
@[simp] theorem State.afterReads_cValid (evs : List Event) : (s.afterReads evs).cValid = s.cValid := rfl
@[simp] theorem State.afterReads_cancelPending (evs : List Event) : (s.afterReads evs).cancelPending = s.cancelPending := rfl
@[simp] theorem State.afterReads_regS (evs : List Event) : (s.afterReads evs).regS = s.regS := rfl
@[simp] theorem State.afterReads_regO (evs : List Event) : (s.afterReads evs).regO = s.regO := rfl
@[simp] theorem State.afterReads_regC (evs : List Event) : (s.afterReads evs).regC = s.regC := rfl
@[simp] theorem State.afterReads_regSUM (evs : List Event) : (s.afterReads evs).regSUM = s.regSUM := rfl
@[simp] theorem State.afterReads_cnt (evs : List Event) : (s.afterReads evs).cnt = s.cnt := rfl
@[simp] theorem State.afterReads_stall (evs : List Event) : (s.afterReads evs).stall = s.stall := rfl
@[simp] theorem State.afterReads_exitStatus (evs : List Event) : (s.afterReads evs).exitStatus = s.exitStatus := rfl
@[simp] theorem State.afterReads_failStep (evs : List Event) : (s.afterReads evs).failStep = s.failStep := rfl
@[simp] theorem State.afterReads_out (evs : List Event) : (s.afterReads evs).out = s.out := rfl
@[simp] theorem State.afterReads_trace (evs : List Event) : (s.afterReads evs).trace = s.trace ++ evs := rfl
@[simp] theorem State.afterReads_cfg (evs : List Event) : (s.afterReads evs).cfg = s.cfg := rfl
@[simp] theorem State.afterReads_running (evs : List Event) : (s.afterReads evs).running = s.running := rfl
@[simp] theorem State.afterReads_port (evs : List Event) : (s.afterReads evs).port = s.port := rfl
@[simp] theorem State.afterReads_response (evs : List Event) : (s.afterReads evs).response = s.response := rfl
@[simp] theorem State.afterReads_script (evs : List Event) : (s.afterReads evs).script = s.script := rfl
@[simp] theorem State.afterReads_answers (evs : List Event) : (s.afterReads evs).answers = s.answers.drop evs.length := rfl
@[simp] theorem State.afterReads_draws (evs : List Event) : (s.afterReads evs).draws = s.draws + evs.length := rfl

/-! ### Reads, one stretch after another -/

@[simp] theorem State.afterReads_nil : s.afterReads [] = s := by simp [State.afterReads]

@[simp] theorem State.afterReads_afterReads (a b : List Event) :
    (s.afterReads a).afterReads b = s.afterReads (a ++ b) := by
  simp [State.afterReads, Nat.add_assoc]

@[simp] theorem State.resetWith_cfg (c : Cfg) : (State.resetWith c).cfg = c := rfl

end Sys2Proof.Machine
end

