-- ==== Sys2Proof/Laws/Values.lean ====
section
/-!
SUPPORT. The values the block computes: the six-element file, `Decode16`, the status test, `abs` and the filter's lane.
-/

namespace Sys2Proof

@[simp] theorem Vec6.get_ofFn (f : Axis → NumQ) (i : Axis) : (Vec6.ofFn f).get i = f i := by cases i <;> rfl

@[simp] theorem Vec6.get_zero (i : Axis) : Vec6.zero.get i = 0 := by cases i <;> rfl

theorem Vec6.ext_get {v w : Vec6} (h : ∀ i, v.get i = w.get i) : v = w := by
  have hx := h .ax
  have hy := h .ay
  have hz := h .az
  have gx := h .gx
  have gy := h .gy
  have gz := h .gz
  cases v; cases w
  simp_all [Vec6.get]

namespace Machine

/-- `(hi << 8) | lo` as a sum (R90). -/
theorem pair16_eq (lo hi : Byte) : pair16 lo hi = hi.toNat * 256 + lo.toNat := by
  have h : hi.toNat <<< 8 ||| lo.toNat = hi.toNat <<< 8 + lo.toNat :=
    (Nat.shiftLeft_add_eq_or_of_lt (i := 8) lo.isLt hi.toNat).symm
  rw [pair16, h, Nat.shiftLeft_eq]

/-- `Decode16` is the two's-complement rule (R110). -/
theorem decode16_eq (lo hi : Byte) : decode16 lo hi = twosComplement lo hi := by
  have := lo.isLt
  have := hi.isLt
  simp only [decode16, sext16, pair16_eq, twosComplement]
  split <;> split <;> omega

theorem pair16_lt (lo hi : Byte) : pair16 lo hi < 65536 := by
  rw [pair16_eq]; have := lo.isLt; have := hi.isLt; omega

/-- The status test looks at bits 1:0 only (R88, R132). -/
theorem statusReady_iff (st : Byte) : statusReady st = true ↔ st.toNat % 4 ≠ 0 := by
  revert st; decide

theorem statusReady_eq_false_iff (st : Byte) : statusReady st = false ↔ st.toNat % 4 = 0 := by
  revert st; decide

/-- What `PollReady()` makes of an answer is what `answerUnready` says. -/
theorem statusReady_statusByte (a : Answer) : statusReady (statusByte a) = false ↔ answerUnready a := by
  cases a with
  | fail => simp [answerUnready]; decide
  | ok b => simpa [answerUnready, statusByte] using statusReady_eq_false_iff b

theorem statusReady_of_not_unready {a : Answer} (h : ¬ answerUnready a) : statusReady (statusByte a) = true := by
  by_contra hc
  exact h ((statusReady_statusByte a).1 (by simpa using hc))

@[simp] theorem absNum_eq_abs (x : NumQ) : absNum x = |x| := by
  unfold absNum
  split
  · rw [abs_of_neg ‹_›]
  · rw [abs_of_nonneg (le_of_not_gt ‹_›)]

theorem correctLane_eq (th s o : NumQ) : correctLane th s o = if |s - o| < th then 0 else s - o := by
  simp [correctLane, inDeadzone]

/-- A corrected lane is 0 or outside the deadzone (R181). -/
theorem correctLane_outside (th s o : NumQ) : correctLane th s o = 0 ∨ th ≤ |correctLane th s o| := by
  rw [correctLane_eq]
  split
  · exact .inl rfl
  · exact .inr (le_of_not_gt ‹_›)

@[simp] theorem correct_get (th : NumQ) (s o : Vec6) (i : Axis) :
    (correct th s o).get i = correctLane th (s.get i) (o.get i) := by simp [correct]

theorem correct_outside (th : NumQ) (s o : Vec6) : outsideDeadzone th (correct th s o) := fun i => by
  rw [correct_get]; exact correctLane_outside th _ _

@[simp] theorem addSample_get (sum v : Vec6) (i : Axis) : (addSample sum v).get i = sum.get i + v.get i := by
  simp [addSample]

/-- `calOffsets` lane by lane (R162, R163). -/
theorem calOffsets_get (c : Cfg) (sum : Vec6) (i : Axis) :
    (calOffsets c sum).get i =
      if i = .az then sum.get i / (c.targetSamples : NumQ) - c.gravity else sum.get i / (c.targetSamples : NumQ) := by
  cases i <;> simp [calOffsets, Vec6.get, Vec6.ofFn]

theorem targetSamples_pos (c : Cfg) : 1 ≤ c.targetSamples := by
  have h := c.ok
  simp only [CfgFields.isAdmitted, CfgFields.targetPositive, Bool.and_eq_true, decide_eq_true_eq] at h
  exact h.1.1.2

end Machine

end Sys2Proof
end

