-- ==== Sys2Proof/Laws/Bus.lean ====
section
/-!
SUPPORT. What the bus primitives, `ReadAxis`, `PollReady()` and `ReadSample()` can do, each said once.
-/

namespace Sys2Proof.Machine

@[simp] theorem nextAnswer_cons {s : State} {a : Answer} {rest : List Answer} (h : s.answers = a :: rest) :
    s.nextAnswer = a := by simp [State.nextAnswer, h]

/-- A bus read changes TRACE and the oracle, nothing else (R54, R58). -/
theorem memRead_eq (reg : Byte) (s : State) :
    memRead reg s = (s.nextAnswer, s.afterReads [.read s.cfg.devAddr reg s.nextAnswer]) := by
  simp [memRead, State.afterReads, State.record, State.drawn]

/-- A bus write changes TRACE and the oracle, nothing else (R55, R58). -/
theorem memWrite_eq (reg v : Byte) (s : State) :
    memWrite reg v s =
      (s.nextAnswer.isOk, s.afterReads [.write s.cfg.devAddr reg v s.nextAnswer.isOk]) := by
  simp [memWrite, State.afterReads, State.record, State.drawn]

/-- `Open` changes `handle_open`, TRACE and the oracle (R53). -/
theorem busOpen_eq (s : State) :
    busOpen s = (s.nextAnswer.isOk,
      { s.afterReads [.opened s.cfg.busNum s.nextAnswer.isOk] with
        handleOpen := s.handleOpen || s.nextAnswer.isOk }) := by
  simp [busOpen, State.afterReads, State.record, State.drawn]

theorem releaseHandle_open {s : State} (h : s.handleOpen = true) :
    releaseHandle s = { s.record .close with handleOpen := false } := by simp [releaseHandle, h]

theorem releaseHandle_closed {s : State} (h : s.handleOpen = false) : releaseHandle s = s := by
  simp [releaseHandle, h]

/-! ### The answers ahead -/

theorem nextAnswer_eq_answerAt (s : State) : s.nextAnswer = s.answerAt 0 := by
  cases h : s.answers <;> simp [State.nextAnswer, State.answerAt, h]

@[simp] theorem answerAt_afterReads (s : State) (evs : List Event) (n : Nat) :
    (s.afterReads evs).answerAt n = s.answerAt (evs.length + n) := by
  simp [State.answerAt, Nat.add_assoc]

/-- A record update that leaves the oracle alone leaves its answers alone. -/
theorem answerAt_congr {s t : State} (ha : t.answers = s.answers) (hd : t.draws = s.draws) (n : Nat) :
    t.answerAt n = s.answerAt n := by simp [State.answerAt, ha, hd]

theorem answeredBy_nil (s : State) : s.answeredBy [] := by simp [State.answeredBy]

theorem answeredBy_cons {s : State} {a : Answer} {as : List Answer} (e : Event) :
    s.answeredBy (a :: as) ↔ s.nextAnswer = a ∧ (s.afterReads [e]).answeredBy as := by
  constructor
  · intro h
    refine ⟨by rw [nextAnswer_eq_answerAt]; exact h 0 a rfl, fun n b hb => ?_⟩
    rw [answerAt_afterReads, List.length_singleton, Nat.add_comm]
    exact h (n + 1) b (by simpa using hb)
  · rintro ⟨h0, h⟩ n b hb
    cases n with
    | zero => rw [← nextAnswer_eq_answerAt, h0]; simpa using hb
    | succ n =>
      have := h n b (by simpa using hb)
      rwa [answerAt_afterReads, List.length_singleton, Nat.add_comm] at this

theorem answeredBy_append {s : State} {as bs : List Answer} (evs : List Event) (h : evs.length = as.length) :
    s.answeredBy (as ++ bs) ↔ s.answeredBy as ∧ (s.afterReads evs).answeredBy bs := by
  constructor
  · intro hs
    constructor
    · intro n a ha
      exact hs n a (by rw [List.getElem?_append_left (List.getElem?_eq_some_iff.1 ha).1]; exact ha)
    · intro n b hb
      rw [answerAt_afterReads, h]
      exact hs _ b (by rw [List.getElem?_append_right (by omega)]; simpa using hb)
  · rintro ⟨ha, hb⟩ n a hn
    by_cases hl : n < as.length
    · exact ha n a (by rwa [List.getElem?_append_left hl] at hn)
    · rw [List.getElem?_append_right (by omega)] at hn
      have := hb _ a hn
      rwa [answerAt_afterReads, h, Nat.add_sub_cancel' (by omega)] at this

/-- Answers the script gives are the answers drawn. -/
theorem answeredBy_of_script {s : State} {as rest : List Answer} (h : s.answers = as ++ rest) : s.answeredBy as := by
  intro n a ha
  simp [State.answerAt, h, List.getElem?_append_left (List.getElem?_eq_some_iff.1 ha).1, ha]

theorem answeredBy_congr {s t : State} (ha : t.answers = s.answers) (hd : t.draws = s.draws) (as : List Answer) :
    t.answeredBy as ↔ s.answeredBy as := by simp [State.answeredBy, answerAt_congr ha hd]

/-! ### `ReadAxis` -/

/-- One `ReadAxis` by its answers (R113). -/
theorem readAxis_of_answers (i : Axis) (s : State) (r : AxisRead) (h : s.answeredBy (r.answers s.cfg)) :
    readAxis i s = (r.value s.cfg i, s.afterReads (r.events s.cfg i)) := by
  cases r with
  | both lo hi =>
    obtain ⟨h1, h⟩ := (answeredBy_cons (.read s.cfg.devAddr (axisBase s.cfg i) (.ok lo))).1 h
    obtain ⟨h2, -⟩ := (answeredBy_cons .close).1 h
    simp [readAxis, memRead_eq, h1, h2, AxisRead.events, AxisRead.value, scale, decode16_eq]
  | highFail lo =>
    obtain ⟨h1, h⟩ := (answeredBy_cons (.read s.cfg.devAddr (axisBase s.cfg i) (.ok lo))).1 h
    obtain ⟨h2, -⟩ := (answeredBy_cons .close).1 h
    simp [readAxis, memRead_eq, h1, h2, AxisRead.events, AxisRead.value]
  | lowFail d =>
    by_cases hk : s.cfg.skipHighAfterLowFail = true
    · simp only [AxisRead.answers, hk, if_true] at h
      obtain ⟨h1, -⟩ := (answeredBy_cons .close).1 h
      simp [readAxis, memRead_eq, h1, hk, AxisRead.events, AxisRead.value]
    · simp only [AxisRead.answers, hk] at h
      obtain ⟨h1, h⟩ := (answeredBy_cons (.read s.cfg.devAddr (axisBase s.cfg i) .fail)).1 h
      obtain ⟨h2, -⟩ := (answeredBy_cons .close).1 h
      simp [readAxis, memRead_eq, h1, h2, hk, AxisRead.events, AxisRead.value]

/-- Whatever the bus answers, it answers one `ReadAxis` in one of the three ways (R58, R113). -/
theorem axisRead_exists (s : State) : ∃ r : AxisRead, s.answeredBy (r.answers s.cfg) := by
  let e : Event := .close
  cases h1 : s.nextAnswer with
  | fail =>
    refine ⟨.lowFail (s.afterReads [e]).nextAnswer, ?_⟩
    by_cases hk : s.cfg.skipHighAfterLowFail = true
    · simp only [AxisRead.answers, hk, if_true]
      exact (answeredBy_cons e).2 ⟨h1, answeredBy_nil _⟩
    · simp only [AxisRead.answers, hk]
      exact (answeredBy_cons e).2 ⟨h1, (answeredBy_cons e).2 ⟨rfl, answeredBy_nil _⟩⟩
  | ok lo =>
    cases h2 : (s.afterReads [e]).nextAnswer with
    | fail => exact ⟨.highFail lo, (answeredBy_cons e).2 ⟨h1, (answeredBy_cons e).2 ⟨h2, answeredBy_nil _⟩⟩⟩
    | ok hi => exact ⟨.both lo hi, (answeredBy_cons e).2 ⟨h1, (answeredBy_cons e).2 ⟨h2, answeredBy_nil _⟩⟩⟩

/-- Each read of a `ReadAxis` is answered by one draw. -/
theorem AxisRead.answers_length (c : Cfg) (i : Axis) (r : AxisRead) :
    (r.answers c).length = (r.events c i).length := by
  cases r with
  | both lo hi => rfl
  | highFail lo => rfl
  | lowFail d => by_cases hk : c.skipHighAfterLowFail = true <;> simp [AxisRead.answers, AxisRead.events, hk]

/-- Every read of a `ReadAxis` is of one of the two registers of its pair (R113). -/
theorem AxisRead.events_sampleRead (c : Cfg) (i : Axis) (r : AxisRead) : ∀ e ∈ r.events c i, isSampleRead c e := by
  have lo : ∀ a, isSampleRead c (.read c.devAddr (axisBase c i) a) := fun a => ⟨i, a, .inl rfl⟩
  have hi : ∀ a, isSampleRead c (.read c.devAddr (axisBase c i + 1) a) := fun a => ⟨i, a, .inr rfl⟩
  cases r with
  | both l h => simpa [AxisRead.events] using ⟨lo _, hi _⟩
  | highFail l => simpa [AxisRead.events] using ⟨lo _, hi _⟩
  | lowFail d =>
    by_cases hk : c.skipHighAfterLowFail = true
    · simpa [AxisRead.events, hk] using lo _
    · simpa [AxisRead.events, hk] using ⟨lo _, hi _⟩

/-! ### `PollReady()` -/

/-- `PollReady()` is one status read; it writes `rdy` and nothing else of the block (R132). -/
theorem pollReady_eq (s : State) :
    pollReady s = (statusReady (statusByte s.nextAnswer),
      { s.afterReads [.read s.cfg.devAddr s.cfg.regStatus s.nextAnswer] with
        rdy := statusReady (statusByte s.nextAnswer) }) := by
  simp [pollReady, memRead_eq]

/-! ### `ReadSample()` -/

theorem sampleEvents_sampleRead (c : Cfg) (r : Axis → AxisRead) : ∀ e ∈ sampleEvents c r, isSampleRead c e := by
  intro e he
  obtain ⟨i, -, hi⟩ := List.mem_flatMap.1 he
  exact AxisRead.events_sampleRead c i (r i) e hi

theorem sampleEvents_length (c : Cfg) (r : Axis → AxisRead) :
    (sampleEvents c r).length = (sampleAnswers c r).length := by
  simp only [sampleAnswers, sampleEvents, List.length_flatMap]
  exact congrArg List.sum (List.map_congr_left fun i _ => (AxisRead.answers_length c i (r i)).symm)

/-- One `ReadSample()` by its answers: six `ReadAxis` in index order, `S` written all together (R134). -/
theorem readSample_of_answers (s : State) (r : Axis → AxisRead) (h : s.answeredBy (sampleAnswers s.cfg r)) :
    readSample s = (sampleValue s.cfg r,
      { s.afterReads (sampleEvents s.cfg r) with regS := sampleValue s.cfg r, sValid := true }) := by
  have key : ∀ (i : Axis) (evs : List Event) (as : List Answer),
      (s.afterReads evs).answeredBy ((r i).answers s.cfg ++ as) →
      readAxis i (s.afterReads evs) = ((r i).value s.cfg i, s.afterReads (evs ++ (r i).events s.cfg i)) ∧
        (s.afterReads (evs ++ (r i).events s.cfg i)).answeredBy as := by
    intro i evs as ha
    obtain ⟨h1, h2⟩ := (answeredBy_append ((r i).events s.cfg i) (AxisRead.answers_length _ _ _).symm).1 ha
    exact ⟨by simpa using readAxis_of_answers i (s.afterReads evs) (r i) h1, by simpa using h2⟩
  simp only [sampleAnswers, axes, List.flatMap_cons, List.flatMap_nil] at h
  obtain ⟨h0, a0⟩ := key .ax [] _ (by simpa using h)
  obtain ⟨h1, a1⟩ := key .ay _ _ a0
  obtain ⟨h2, a2⟩ := key .az _ _ a1
  obtain ⟨h3, a3⟩ := key .gx _ _ a2
  obtain ⟨h4, a4⟩ := key .gy _ _ a3
  obtain ⟨h5, -⟩ := key .gz _ [] (by rw [List.append_nil]; exact a4)
  rw [State.afterReads_nil] at h0
  simp only [readSample, readAxes, h0, h1, h2, h3, h4, h5]
  simp [sampleValue, sampleEvents, axes, Vec6.ofFn]

/-- Whatever the bus answers, it answers one `ReadSample()` axis by axis (R58, R134). -/
theorem sampleReads_exist (s : State) : ∃ r : Axis → AxisRead, s.answeredBy (sampleAnswers s.cfg r) := by
  have next : ∀ evs : List Event, ∃ r : AxisRead, (s.afterReads evs).answeredBy (r.answers s.cfg) :=
    fun evs => axisRead_exists (s.afterReads evs)
  obtain ⟨r0, h0⟩ := next []
  obtain ⟨r1, h1⟩ := next (r0.events s.cfg .ax)
  obtain ⟨r2, h2⟩ := next (r0.events s.cfg .ax ++ r1.events s.cfg .ay)
  obtain ⟨r3, h3⟩ := next (r0.events s.cfg .ax ++ r1.events s.cfg .ay ++ r2.events s.cfg .az)
  obtain ⟨r4, h4⟩ :=
    next (r0.events s.cfg .ax ++ r1.events s.cfg .ay ++ r2.events s.cfg .az ++ r3.events s.cfg .gx)
  obtain ⟨r5, h5⟩ := next (r0.events s.cfg .ax ++ r1.events s.cfg .ay ++ r2.events s.cfg .az ++
    r3.events s.cfg .gx ++ r4.events s.cfg .gy)
  refine ⟨fun i => match i with | .ax => r0 | .ay => r1 | .az => r2 | .gx => r3 | .gy => r4 | .gz => r5, ?_⟩
  have join : ∀ (i : Axis) (r : AxisRead) (evs : List Event) (as : List Answer),
      (s.afterReads evs).answeredBy (r.answers s.cfg) → (s.afterReads (evs ++ r.events s.cfg i)).answeredBy as →
      (s.afterReads evs).answeredBy (r.answers s.cfg ++ as) := fun i r evs as ha hb =>
    (answeredBy_append (r.events s.cfg i) (AxisRead.answers_length _ _ _).symm).2 ⟨ha, by simpa using hb⟩
  simp only [sampleAnswers, axes, List.flatMap_cons, List.flatMap_nil]
  rw [State.afterReads_nil] at h0
  have t4 := join .gy r4 _ _ h4 (join .gz r5 _ [] h5 (answeredBy_nil _))
  have t3 := join .gx r3 _ _ h3 t4
  have t1 := join .ay r1 _ _ h1 (join .az r2 _ _ h2 t3)
  have t0 := join .ax r0 [] _ (by simpa using h0) (by simpa using t1)
  simpa using t0

/-- What one `ReadSample()` can do, whatever the bus answers. -/
theorem readSample_cases (s : State) :
    ∃ r : Axis → AxisRead, s.answeredBy (sampleAnswers s.cfg r) ∧ readSample s = (sampleValue s.cfg r,
      { s.afterReads (sampleEvents s.cfg r) with regS := sampleValue s.cfg r, sValid := true }) := by
  obtain ⟨r, hr⟩ := sampleReads_exist s
  exact ⟨r, hr, readSample_of_answers s r hr⟩

end Sys2Proof.Machine
end

