-- ==== Sys2Proof/Laws/Calibration.lean ====
section
/-!
SUPPORT. CAL's loop: what one pass can do, what the loop leaves unchanged, and that it reaches one of its exits (R160,
R165).
-/

namespace Sys2Proof.Machine

/-- A pass whose poll is not ready counts it in `STALL` and reads no sample (R160, R164). -/
theorem calPass_unready {s : State} (h : answerUnready s.nextAnswer) :
    calPass s = (if s.stall + 1 > s.cfg.stallLimit then .stalled else .again,
      { s.afterReads [.read s.cfg.devAddr s.cfg.regStatus s.nextAnswer] with rdy := false, stall := s.stall + 1 }) := by
  have hr := (statusReady_statusByte _).2 h
  simp [calPass, pollReady_eq, hr, stalledOut]

/-- A pass whose poll is ready, by the answers to its sample: it reads the sample, sums it, counts it and clears `STALL`
(R160, R161). -/
theorem calPass_ready_of_answers {s : State} (h : ¬ answerUnready s.nextAnswer) (r : Axis → AxisRead)
    (ha : s.answeredBy (s.nextAnswer :: sampleAnswers s.cfg r)) :
    calPass s =
      (if s.cnt + 1 = s.cfg.targetSamples then .done else .again,
        { s.afterReads (.read s.cfg.devAddr s.cfg.regStatus s.nextAnswer :: sampleEvents s.cfg r) with
          rdy := true, regS := sampleValue s.cfg r, sValid := true
          regSUM := addSample s.regSUM (sampleValue s.cfg r), cnt := s.cnt + 1, stall := 0 }) := by
  have hr := statusReady_of_not_unready h
  have hs := readSample_of_answers
    { s.afterReads [.read s.cfg.devAddr s.cfg.regStatus s.nextAnswer] with rdy := true } r
    ((answeredBy_congr rfl rfl _).2 ((answeredBy_cons _).1 ha).2)
  simp only [calPass, pollReady_eq, hr, hs]
  simp [State.afterReads, targetReached, Nat.add_assoc]
  omega

/-- A pass whose poll is ready, whatever the bus answers. -/
theorem calPass_ready {s : State} (h : ¬ answerUnready s.nextAnswer) :
    ∃ r : Axis → AxisRead, calPass s =
      (if s.cnt + 1 = s.cfg.targetSamples then .done else .again,
        { s.afterReads (.read s.cfg.devAddr s.cfg.regStatus s.nextAnswer :: sampleEvents s.cfg r) with
          rdy := true, regS := sampleValue s.cfg r, sValid := true
          regSUM := addSample s.regSUM (sampleValue s.cfg r), cnt := s.cnt + 1, stall := 0 }) := by
  obtain ⟨r, hr⟩ := sampleReads_exist (s.afterReads [.read s.cfg.devAddr s.cfg.regStatus s.nextAnswer])
  exact ⟨r, calPass_ready_of_answers h r ((answeredBy_cons _).2 ⟨rfl, hr⟩)⟩

theorem calFrame_refl (s : State) : calFrame s s := ⟨[], by simp, by simp⟩

theorem calFrame_cfg {s t : State} (h : calFrame s t) : t.cfg = s.cfg := by
  obtain ⟨evs, -, ht⟩ := h
  rw [ht]; rfl

theorem calFrame_trans {s t u : State} (h : calFrame s t) (k : calFrame t u) : calFrame s u := by
  have hc := calFrame_cfg h
  obtain ⟨a, ha, ht⟩ := h
  obtain ⟨b, hb, hu⟩ := k
  refine ⟨a ++ b, ?_, ?_⟩
  · intro e he
    rcases List.mem_append.1 he with h | h
    · exact ha e h
    · simpa [hc] using hb e h
  · rw [ht] at hu
    simpa [State.afterReads, Nat.add_assoc] using hu

theorem calStart_frame (s : State) : calFrame s (calStart s) := ⟨[], by simp, by simp [calStart, State.afterReads]⟩

/-- One pass of the loop changes what `calFrame` lists and nothing else. -/
theorem calPass_frame (s : State) : calFrame s (calPass s).2 := by
  by_cases h : answerUnready s.nextAnswer
  · rw [calPass_unready h]
    exact ⟨[.read s.cfg.devAddr s.cfg.regStatus s.nextAnswer], by simpa using .inl ⟨_, rfl⟩, by simp [State.afterReads]⟩
  · obtain ⟨r, hr⟩ := calPass_ready h
    rw [hr]
    refine ⟨.read s.cfg.devAddr s.cfg.regStatus s.nextAnswer :: sampleEvents s.cfg r, ?_, by simp [State.afterReads]⟩
    intro e he
    rcases List.mem_cons.1 he with rfl | he
    · exact .inl ⟨_, rfl⟩
    · exact .inr (sampleEvents_sampleRead _ _ e he)

/-- What one pass keeps, the loop keeps. -/
theorem calLoop_induction {P : State → Prop} (hP : ∀ s, P s → P (calPass s).2) (n : Nat) (s : State) (h : P s) :
    P (calLoop n s).2 := by
  induction n generalizing s with
  | zero => exact h
  | succ n ih =>
    have hp := hP s h
    simp only [calLoop]
    generalize calPass s = r at hp
    obtain ⟨e, t⟩ := r
    cases e with
    | again => exact ih t hp
    | done => exact hp
    | stalled => exact hp

theorem calLoop_frame (n : Nat) (s : State) : calFrame s (calLoop n s).2 :=
  calLoop_induction (P := calFrame s) (fun t h => calFrame_trans h (calPass_frame t)) n s (calFrame_refl s)

/-- How many passes may still come: the unready polls that the ticks to come and this one leave room for (R165). -/
def passesLeft (s : State) : Nat := (s.cfg.targetSamples - s.cnt) * (s.cfg.stallLimit + 1) - s.stall

/-- The ranges within which the loop goes on (R29). -/
def calOpen (s : State) : Prop := s.cnt < s.cfg.targetSamples ∧ s.stall ≤ s.cfg.stallLimit

/-- A pass that goes on stays in range and leaves fewer passes. A pass that leaves the loop says why. -/
theorem calPass_progress {s : State} (h : calOpen s) :
    match calPass s with
    | (.again, t) => calOpen t ∧ passesLeft t + 1 ≤ passesLeft s ∧ t.cfg = s.cfg
    | (.done, t) => t.cnt = t.cfg.targetSamples ∧ t.stall = 0
    | (.stalled, t) => t.stall = t.cfg.stallLimit + 1 ∧ t.cnt < t.cfg.targetSamples := by
  obtain ⟨hc, hs⟩ := h
  by_cases hu : answerUnready s.nextAnswer
  · rw [calPass_unready hu]
    split_ifs with hl
    · exact ⟨by simp; omega, by simpa using hc⟩
    · refine ⟨⟨by simpa using hc, by simp; omega⟩, ?_, rfl⟩
      have : s.cfg.stallLimit + 1 ≤ (s.cfg.targetSamples - s.cnt) * (s.cfg.stallLimit + 1) :=
        Nat.le_mul_of_pos_left _ (by omega)
      simp only [passesLeft, State.afterReads_cfg, State.afterReads_cnt]
      omega
  · obtain ⟨r, hr⟩ := calPass_ready hu
    rw [hr]
    split_ifs with hl
    · exact ⟨by simpa using hl, rfl⟩
    · refine ⟨⟨by simp; omega, by simp⟩, ?_, rfl⟩
      obtain ⟨d, hd⟩ : ∃ d, s.cfg.targetSamples - s.cnt = d + 1 := ⟨s.cfg.targetSamples - s.cnt - 1, by omega⟩
      have hd' : s.cfg.targetSamples - (s.cnt + 1) = d := by omega
      simp only [passesLeft, State.afterReads_cfg, hd, hd', Nat.add_mul]
      omega

/-- With passes enough, the loop reaches an exit: all samples summed, or the stall counter past its limit (R165). -/
theorem calLoop_exit (n : Nat) (s : State) (h : calOpen s) (hn : passesLeft s ≤ n) :
    match calLoop n s with
    | (.again, _) => False
    | (.done, t) => t.cnt = t.cfg.targetSamples ∧ t.stall = 0
    | (.stalled, t) => t.stall = t.cfg.stallLimit + 1 ∧ t.cnt < t.cfg.targetSamples := by
  induction n generalizing s with
  | zero =>
    have h1 : s.cfg.stallLimit + 1 ≤ (s.cfg.targetSamples - s.cnt) * (s.cfg.stallLimit + 1) :=
      Nat.le_mul_of_pos_left _ (by have := h.1; omega)
    have := h.2
    simp only [passesLeft] at hn
    omega
  | succ n ih =>
    have hp := calPass_progress h
    simp only [calLoop]
    generalize calPass s = r at hp
    obtain ⟨e, t⟩ := r
    cases e with
    | again => exact ih t hp.1 (by have := hp.2.1; omega)
    | done => exact hp
    | stalled => exact hp

/-- CAL always reaches one of its exits: the fault `calibrationUnbounded` is never raised (R165). -/
theorem calLoop_ends (s : State) :
    match calLoop (calBound s.cfg) (calStart s) with
    | (.again, _) => False
    | (.done, t) => t.cnt = t.cfg.targetSamples ∧ t.stall = 0
    | (.stalled, t) => t.stall = t.cfg.stallLimit + 1 ∧ t.cnt < t.cfg.targetSamples := by
  refine calLoop_exit _ _ ⟨?_, ?_⟩ ?_
  · have := targetSamples_pos s.cfg
    simp [calStart]; omega
  · simp [calStart]
  · simp [passesLeft, calStart, calBound]

/-- The two answers of CAL's body. -/
theorem calCommand_cases (s : State) :
    (∃ t, calFrame s t ∧ t.cnt = t.cfg.targetSamples ∧ t.stall = 0 ∧ calCommand s = .next (calDone t)) ∨
      (∃ t, calFrame s t ∧ t.stall = t.cfg.stallLimit + 1 ∧ t.cnt < t.cfg.targetSamples ∧
        calCommand s = .next (calStalled t)) := by
  have he := calLoop_ends s
  have hf := calFrame_trans (calStart_frame s) (calLoop_frame (calBound s.cfg) (calStart s))
  simp only [calCommand]
  generalize calLoop (calBound s.cfg) (calStart s) = r at he hf
  obtain ⟨e, t⟩ := r
  cases e with
  | again => exact he.elim
  | done => exact .inl ⟨t, hf, he.1, he.2, rfl⟩
  | stalled => exact .inr ⟨t, hf, he.1, he.2, rfl⟩

end Sys2Proof.Machine
end

