-- ==== Sys2Proof/Laws/Driver.lean ====
section
/-!
SUPPORT. INIT's sequence: its one success and its five failures (R130, R203).
-/

namespace Sys2Proof.Machine

theorem fatal_closed (k : BitVec 3) {s : State} (h : s.handleOpen = false) :
    fatal k s = { s with failStep := k, exitStatus := 1, dstate := .failed, response := some (respWord false .fatal) } := by
  simp [fatal, releaseHandle_closed h, State.respond]

theorem fatal_open (k : BitVec 3) {s : State} (h : s.handleOpen = true) :
    fatal k s = { s with
      handleOpen := false, failStep := k, exitStatus := 1, dstate := .failed, trace := s.trace ++ [.close]
      response := some (respWord false .fatal) } := by
  simp [fatal, releaseHandle_open h, State.respond, State.record]

theorem initWrite_ok (k : BitVec 3) (reg v : Byte) (rest : State → State) {s : State}
    (h : (s.answerAt 0).isOk = true) :
    initWrite k reg v rest s = rest (s.afterReads [.write s.cfg.devAddr reg v true]) := by
  simp [initWrite, memWrite_eq, nextAnswer_eq_answerAt, h]

theorem initWrite_fail (k : BitVec 3) (reg v : Byte) (rest : State → State) {s : State}
    (h : (s.answerAt 0).isOk = false) :
    initWrite k reg v rest s = fatal k (s.afterReads [.write s.cfg.devAddr reg v false]) := by
  simp [initWrite, memWrite_eq, nextAnswer_eq_answerAt, h]

/-- INIT with every primitive answered `OK` (R130). -/
theorem initSequence_ok (s : State) (h : ∀ n, n < 5 → (s.answerAt n).isOk = true) :
    initSequence s = { s with
      dstate := .ready, handleOpen := true, trace := s.trace ++ initTrace s.cfg
      answers := s.answers.drop 5, draws := s.draws + 5, response := some (respWord false .ok) } := by
  have h0 := h 0 (by omega)
  have h1 := h 1 (by omega)
  have h2 := h 2 (by omega)
  have h3 := h 3 (by omega)
  have h4 := h 4 (by omega)
  simp only [State.answerAt, Nat.add_zero] at h0 h1 h2 h3 h4
  simp [initSequence, busOpen_eq, nextAnswer_eq_answerAt, initReset, initSettle, initAccel, initGyro, initEnable,
    initFinish, initWrite, memWrite_eq, State.answerAt, State.afterReads, State.wait, State.record, State.respond,
    initTrace, h0, h1, h2, h3, h4, Nat.add_assoc]

/-- INIT whose primitive `k` is the first to answer `FAIL`, from the closed handle INIT finds (R203). -/
theorem initSequence_fail (s : State) (k : Nat) (hk : k < 5) (hc : s.handleOpen = false)
    (h : ∀ n, n < k → (s.answerAt n).isOk = true) (hf : (s.answerAt k).isOk = false) :
    initSequence s = { s with
      dstate := .failed, exitStatus := 1, failStep := BitVec.ofNat 3 k, trace := s.trace ++ initFailTrace s.cfg k
      answers := s.answers.drop (k + 1), draws := s.draws + (k + 1), response := some (respWord false .fatal) } := by
  have h0 := h 0
  have h1 := h 1
  have h2 := h 2
  have h3 := h 3
  simp only [State.answerAt] at h0 h1 h2 h3 hf
  have hk' : k = 0 ∨ k = 1 ∨ k = 2 ∨ k = 3 ∨ k = 4 := by omega
  rcases hk' with rfl | rfl | rfl | rfl | rfl <;> simp at h0 h1 h2 h3 hf <;>
    simp [initSequence, busOpen_eq, nextAnswer_eq_answerAt, initReset, initSettle, initAccel, initGyro, initEnable,
      initWrite, memWrite_eq, fatal, releaseHandle, State.answerAt, State.afterReads, State.wait, State.record,
      State.respond, initTrace, initFailTrace, h0, h1, h2, h3, hf, hc, Nat.add_assoc]

/-- The same from an open handle, a state no run reaches: `Fatal` closes it at step 0 too. -/
theorem initSequence_fail_open (s : State) (k : Nat) (hk : k < 5) (ho : s.handleOpen = true)
    (h : ∀ n, n < k → (s.answerAt n).isOk = true) (hf : (s.answerAt k).isOk = false) :
    initSequence s = { s with
      dstate := .failed, handleOpen := false, exitStatus := 1, failStep := BitVec.ofNat 3 k
      trace := s.trace ++ (initFailTrace s.cfg k ++ if k = 0 then [.close] else [])
      answers := s.answers.drop (k + 1), draws := s.draws + (k + 1), response := some (respWord false .fatal) } := by
  have h0 := h 0
  have h1 := h 1
  have h2 := h 2
  have h3 := h 3
  simp only [State.answerAt] at h0 h1 h2 h3 hf
  have hk' : k = 0 ∨ k = 1 ∨ k = 2 ∨ k = 3 ∨ k = 4 := by omega
  rcases hk' with rfl | rfl | rfl | rfl | rfl <;> simp at h0 h1 h2 h3 hf <;>
    simp [initSequence, busOpen_eq, nextAnswer_eq_answerAt, initReset, initSettle, initAccel, initGyro, initEnable,
      initWrite, memWrite_eq, fatal, releaseHandle, State.answerAt, State.afterReads, State.wait, State.record,
      State.respond, initTrace, initFailTrace, h0, h1, h2, h3, hf, ho, Nat.add_assoc]

/-- INIT succeeds, or fails at its first primitive that answers `FAIL`. -/
theorem init_ok_or_fail (s : State) :
    (∀ n, n < 5 → (s.answerAt n).isOk = true) ∨
      ∃ k, k < 5 ∧ (∀ n, n < k → (s.answerAt n).isOk = true) ∧ (s.answerAt k).isOk = false := by
  by_cases h : ∀ n, n < 5 → (s.answerAt n).isOk = true
  · exact .inl h
  · right
    have hex : ∃ n, n < 5 ∧ (s.answerAt n).isOk ≠ true := by simpa using h
    refine ⟨Nat.find hex, (Nat.find_spec hex).1, fun n hn => ?_, by simpa using (Nat.find_spec hex).2⟩
    by_contra hc
    exact Nat.find_min hex hn ⟨lt_trans hn (Nat.find_spec hex).1, hc⟩

end Sys2Proof.Machine
end

