-- ==== Sys2Proof/Laws/Admission.lean ====
section
/-!
SUPPORT. The acceptance of a command (R205), said once per case for `accept`, and once for `exec` of every command.
-/

namespace Sys2Proof.Machine

variable (i : Instr) (perform : State → Host.Outcome State Fault Refusal) {s : State}

theorem accept_terminal (h : s.terminal = true) : accept i perform s = .next (s.respond false .refused) := by
  simp [accept, h]

theorem accept_cancel (h : s.terminal = false) (hc : s.cancelPending = true) :
    accept i perform s = .next (takeCancel s) := by simp [accept, h, hc]

theorem accept_not_admitted (h : s.terminal = false) (hc : s.cancelPending = false) (ha : admits i s = false) :
    accept i perform s = .next (s.respond false .refused) := by simp [accept, h, hc, ha]

theorem accept_performed (h : s.terminal = false) (hc : s.cancelPending = false) (ha : admits i s = true) :
    accept i perform s = perform s := by simp [accept, h, hc, ha]

theorem withHandle_open (op : State → Host.Outcome State Fault Refusal) (h : s.handleOpen = true) :
    withHandle s op = op s := by simp [withHandle, h]

/-- What each command does once admitted (R205 step 5). -/
def performed : Instr → State → Host.Outcome State Fault Refusal
  | .init => fun t => .next (initSequence t)
  | .poll => fun t => withHandle t fun u => .next (pollCommand u)
  | .read => fun t => withHandle t fun u => .next (readCommand u)
  | .cal => fun t => withHandle t calCommand
  | .corr => fun t => .next (corrCommand t)
  | .run => fun t => runIteration { t with running := true }

/-- Every command goes through the same acceptance. -/
theorem exec_eq_accept (s : State) : exec i s = accept i (performed i) s := by cases i <;> rfl

/-- A command is refused in a terminal state (R205 step 2). -/
theorem exec_terminal (h : s.terminal = true) : exec i s = .next (s.respond false .refused) := by
  rw [exec_eq_accept, accept_terminal _ _ h]

/-- A pending cancellation is taken whatever the command (R205 step 3). -/
theorem exec_cancel (h : s.terminal = false) (hc : s.cancelPending = true) : exec i s = .next (takeCancel s) := by
  rw [exec_eq_accept, accept_cancel _ _ h hc]

/-- A command that is not admitted is refused (R205 step 4). -/
theorem exec_not_admitted (h : s.terminal = false) (hc : s.cancelPending = false) (ha : admits i s = false) :
    exec i s = .next (s.respond false .refused) := by
  rw [exec_eq_accept, accept_not_admitted _ _ h hc ha]

/-- An admitted command is performed (R205 step 5). -/
theorem exec_admitted (h : s.terminal = false) (hc : s.cancelPending = false) (ha : admits i s = true) :
    exec i s = performed i s := by
  rw [exec_eq_accept, accept_performed _ _ h hc ha]

/-- The four answers to a command (R205). -/
theorem exec_cases (s : State) :
    (exec i s = .next (s.respond false .refused) ∧ (s.terminal = true ∨ admits i s = false)) ∨
    (s.terminal = false ∧ s.cancelPending = true ∧ exec i s = .next (takeCancel s)) ∨
    (s.terminal = false ∧ s.cancelPending = false ∧ admits i s = true ∧ exec i s = performed i s) := by
  by_cases ht : s.terminal = true
  · exact .inl ⟨exec_terminal i ht, .inl ht⟩
  · have ht' : s.terminal = false := by simpa using ht
    by_cases hc : s.cancelPending = true
    · exact .inr (.inl ⟨ht', hc, exec_cancel i ht' hc⟩)
    · have hc' : s.cancelPending = false := by simpa using hc
      by_cases ha : admits i s = true
      · exact .inr (.inr ⟨ht', hc', ha, exec_admitted i ht' hc' ha⟩)
      · have ha' : admits i s = false := by simpa using ha
        exact .inl ⟨exec_not_admitted i ht' hc' ha', .inr ha'⟩

theorem terminal_of_ready (h : s.dstate = .ready) : s.terminal = false := by simp [State.terminal, h]

theorem terminal_iff : s.terminal = true ↔ s.dstate = .failed ∨ s.dstate = .stopped := by
  cases h : s.dstate <;> simp [State.terminal, h]

end Sys2Proof.Machine
end

