-- ==== Sys2Proof/Laws/Step.lean ====
section
/-!
SUPPORT. What one step can do: the host's move, then one of the four turns of the block.
-/

namespace Sys2Proof.Machine

/-- A step that answers has passed through the host's move. -/
theorem step_next {s t : State} (h : step s = .next t) : ∃ u, hostTurn s = .next u ∧ blockTurn u = .next t := by
  unfold step at h
  split at h
  · exact ⟨_, ‹_›, h⟩
  · cases h
  · cases h

theorem step_of_hostTurn {s u : State} (h : hostTurn s = .next u) : step s = blockTurn u := by simp [step, h]

/-- The host's move, when it answers: nothing, a word, the cancel latch, or a reset with an admitted configuration. -/
theorem hostTurn_cases {s u : State} (h : hostTurn s = .next u) :
    (s.script = [] ∧ u = s) ∨
    (∃ rest, s.script = .quiet :: rest ∧ u = { s with script := rest }) ∨
    (∃ rest w, s.script = .present w :: rest ∧ u = { s with script := rest, port := s.port ++ [w] }) ∨
    (∃ rest, s.script = .cancel :: rest ∧ u = { s with script := rest, cancelPending := true }) ∨
    (∃ rest c, s.script = .reset c.toCfgFields :: rest ∧ s.running = false ∧
      u = { State.resetWith c with script := rest, answers := s.answers, draws := s.draws }) := by
  unfold hostTurn at h
  split at h
  · cases h; exact .inl ⟨‹_›, rfl⟩
  · rename_i m rest hm
    cases m with
    | quiet => cases h; exact .inr (.inl ⟨rest, hm, rfl⟩)
    | present w => cases h; exact .inr (.inr (.inl ⟨rest, w, hm, rfl⟩))
    | cancel => cases h; exact .inr (.inr (.inr (.inl ⟨rest, hm, rfl⟩)))
    | reset c =>
      simp only [applyMove, applyReset] at h
      split_ifs at h with hr ha
      cases h
      exact .inr (.inr (.inr (.inr ⟨rest, { c with ok := ha }, hm, by simpa using hr, rfl⟩)))

/-- The block's turn: an iteration of RUN, an idle step, an illegal word answered, or a command executed. -/
theorem blockTurn_cases (u : State) :
    (u.running = true ∧ blockTurn u = runIteration u) ∨
    (u.running = false ∧ u.port = [] ∧ blockTurn u = .next u) ∨
    (∃ w rest e, u.running = false ∧ u.port = w :: rest ∧ decode w = .error e ∧
      blockTurn u = .next (respondIllegal { u with port := rest, response := none })) ∨
    (∃ w rest i, u.running = false ∧ u.port = w :: rest ∧ decode w = .ok i ∧
      blockTurn u = exec i { u with port := rest, response := none }) := by
  by_cases hr : u.running = true
  · exact .inl ⟨hr, by simp [blockTurn, hr]⟩
  · have hr' : u.running = false := by simpa using hr
    cases hp : u.port with
    | nil => exact .inr (.inl ⟨hr', rfl, by simp [blockTurn, hr', takeWord, hp]⟩)
    | cons w rest =>
      cases hd : decode w with
      | error e => exact .inr (.inr (.inl ⟨w, rest, e, hr', rfl, hd, by simp [blockTurn, hr', takeWord, hp, hd]⟩))
      | ok i => exact .inr (.inr (.inr ⟨w, rest, i, hr', rfl, hd, by simp [blockTurn, hr', takeWord, hp, hd]⟩))

/-- One iteration of RUN: the cancellation, a fault with the handle closed, or `Iterate()` (R184). -/
theorem runIteration_cases (s : State) :
    (s.cancelPending = true ∧ runIteration s = .next (takeCancel s)) ∨
    (s.cancelPending = false ∧ s.handleOpen = false ∧ runIteration s = .fault .busHandleClosed) ∨
    (s.cancelPending = false ∧ s.handleOpen = true ∧ runIteration s = .next (iterate s)) := by
  by_cases hc : s.cancelPending = true <;> by_cases ho : s.handleOpen = true <;>
    simp_all [runIteration, withHandle]

/-- `Iterate()` on an unready poll: it waits (R185). -/
theorem iterate_unready {s : State} (h : answerUnready s.nextAnswer) : iterate s =
    { s.afterReads [.read s.cfg.devAddr s.cfg.regStatus s.nextAnswer] with
      rdy := false
      trace := s.trace ++ [.read s.cfg.devAddr s.cfg.regStatus s.nextAnswer, .wait s.cfg.tPoll] } := by
  have hr := (statusReady_statusByte _).2 h
  simp [iterate, pollReady_eq, hr, State.wait, State.record, State.afterReads]

/-- `Iterate()` on a ready tick, by the answers to its sample: it reads, corrects and emits (R185). -/
theorem iterate_ready_of_answers {s : State} (h : ¬ answerUnready s.nextAnswer) (r : Axis → AxisRead)
    (ha : s.answeredBy (s.nextAnswer :: sampleAnswers s.cfg r)) : iterate s =
    correctAndEmit (sampleValue s.cfg r)
      { s.afterReads (.read s.cfg.devAddr s.cfg.regStatus s.nextAnswer :: sampleEvents s.cfg r) with
        rdy := true, regS := sampleValue s.cfg r, sValid := true } := by
  have hr := statusReady_of_not_unready h
  have hs := readSample_of_answers
    { s.afterReads [.read s.cfg.devAddr s.cfg.regStatus s.nextAnswer] with rdy := true } r
    ((answeredBy_congr rfl rfl _).2 ((answeredBy_cons _).1 ha).2)
  simp only [iterate, pollReady_eq, hr, hs]
  simp [State.afterReads, Nat.add_assoc, Nat.add_comm 1]

/-- `Iterate()` on a ready tick, whatever the bus answers. -/
theorem iterate_ready {s : State} (h : ¬ answerUnready s.nextAnswer) : ∃ r : Axis → AxisRead,
    s.answeredBy (s.nextAnswer :: sampleAnswers s.cfg r) ∧ iterate s =
      correctAndEmit (sampleValue s.cfg r)
        { s.afterReads (.read s.cfg.devAddr s.cfg.regStatus s.nextAnswer :: sampleEvents s.cfg r) with
          rdy := true, regS := sampleValue s.cfg r, sValid := true } := by
  obtain ⟨r, hr⟩ := sampleReads_exist (s.afterReads [.read s.cfg.devAddr s.cfg.regStatus s.nextAnswer])
  have ha : s.answeredBy (s.nextAnswer :: sampleAnswers s.cfg r) := (answeredBy_cons _).2 ⟨rfl, hr⟩
  exact ⟨r, ha, iterate_ready_of_answers h r ha⟩

end Sys2Proof.Machine
end

