-- ==== Sys2Proof/Laws/Commands.lean ====
section
/-!
SUPPORT. Everything each command can do once performed, and the cancellation, said once per command.
-/

namespace Sys2Proof.Machine

/-- A step in which the host does nothing. -/
theorem hostTurn_quiet {s : State} (h : hostQuiet s) : hostTurn s = .next { s with script := s.script.tail } := by
  rcases h with h | ⟨rest, h⟩ <;> simp [hostTurn, h, applyMove]
  rw [← h]

/-- `admits` is the table of R205. -/
theorem admits_iff (i : Instr) (s : State) : admits i s = true ↔ admitTable s i := by
  cases i <;> simp [admits, admitTable, and_assoc]

/-- Taking the cancellation, open handle or not (R211). -/
theorem takeCancel_eq (s : State) : takeCancel s = { s with
    handleOpen := false, trace := if s.handleOpen then s.trace ++ [.close] else s.trace
    exitStatus := 0, dstate := .stopped, running := false, response := some (respWord false .stopped) } := by
  cases h : s.handleOpen <;> simp [takeCancel, releaseHandle, h, State.respond, State.record]

/-- INIT's sequence: done, or stopped at its first primitive that answers `FAIL` (R130, R203). -/
theorem initSequence_cases (s : State) :
    initSequence s = { s with
      dstate := .ready, handleOpen := true, trace := s.trace ++ initTrace s.cfg
      answers := s.answers.drop 5, draws := s.draws + 5, response := some (respWord false .ok) } ∨
    ∃ k, k < 5 ∧ initSequence s = { s with
      dstate := .failed, handleOpen := false, exitStatus := 1, failStep := BitVec.ofNat 3 k
      trace := s.trace ++ (initFailTrace s.cfg k ++ if s.handleOpen = true ∧ k = 0 then [.close] else [])
      answers := s.answers.drop (k + 1), draws := s.draws + (k + 1), response := some (respWord false .fatal) } := by
  rcases init_ok_or_fail s with h | ⟨k, hk, h, hf⟩
  · exact .inl (initSequence_ok s h)
  · right
    refine ⟨k, hk, ?_⟩
    cases ho : s.handleOpen
    · rw [initSequence_fail s k hk ho h hf]; simp [ho]
    · rw [initSequence_fail_open s k hk ho h hf]; simp

/-- POLL's body (R132, R133). -/
theorem pollCommand_eq (s : State) : pollCommand s =
    { s.afterReads [.read s.cfg.devAddr s.cfg.regStatus s.nextAnswer] with
      rdy := statusReady (statusByte s.nextAnswer)
      response := some (respWord (statusReady (statusByte s.nextAnswer)) .ok) } := by
  simp [pollCommand, pollReady_eq, State.respond]

/-- READ's body (R134, R135). -/
theorem readCommand_cases (s : State) : ∃ r, s.answeredBy (sampleAnswers s.cfg r) ∧ readCommand s =
    { s.afterReads (sampleEvents s.cfg r) with
      regS := sampleValue s.cfg r, sValid := true, response := some (respWord false .ok) } := by
  obtain ⟨r, hr, h⟩ := readSample_cases s
  exact ⟨r, hr, by simp [readCommand, h, State.respond]⟩

/-- CAL's body, in the frame of what it may change (R39, R160). -/
theorem calCommand_frame {s t : State} (h : calCommand s = .next t) :
    ∃ u, calFrame s u ∧ u.cnt ≤ s.cfg.targetSamples ∧ u.stall ≤ s.cfg.stallLimit + 1 ∧
      ∃ o, t = { u with regO := o, oValid := true, response := some (respWord false .ok) } := by
  rcases calCommand_cases s with ⟨u, hf, h1, h2, he⟩ | ⟨u, hf, h1, h2, he⟩ <;> rw [he] at h <;> cases h
  all_goals have hc := calFrame_cfg hf
  · exact ⟨u, hf, by rw [h1, hc], by omega, _, rfl⟩
  · rw [hc] at h1 h2; exact ⟨u, hf, by omega, by omega, _, rfl⟩

/-- CORR's body (R180, R183). -/
theorem corrCommand_eq (s : State) : corrCommand s = { s with
    regC := correct s.cfg.threshold s.regS s.regO, cValid := true
    out := s.out ++ [correct s.cfg.threshold s.regS s.regO]
    trace := s.trace ++ [.emit (correct s.cfg.threshold s.regS s.regO)]
    response := some (respWord false .ok) } := rfl

/-- `Iterate()`: an unready poll and a wait, or a sample read, corrected and emitted (R185). -/
theorem iterate_cases (s : State) :
    iterate s = { s.afterReads [.read s.cfg.devAddr s.cfg.regStatus s.nextAnswer] with
      rdy := false
      trace := s.trace ++ [.read s.cfg.devAddr s.cfg.regStatus s.nextAnswer, .wait s.cfg.tPoll] } ∨
    ∃ r, iterate s =
      { s.afterReads (.read s.cfg.devAddr s.cfg.regStatus s.nextAnswer :: sampleEvents s.cfg r) with
        rdy := true, regS := sampleValue s.cfg r, sValid := true
        regC := correct s.cfg.threshold (sampleValue s.cfg r) s.regO, cValid := true
        out := s.out ++ [correct s.cfg.threshold (sampleValue s.cfg r) s.regO]
        trace := s.trace ++ .read s.cfg.devAddr s.cfg.regStatus s.nextAnswer :: sampleEvents s.cfg r ++
          [.emit (correct s.cfg.threshold (sampleValue s.cfg r) s.regO)] } := by
  by_cases h : answerUnready s.nextAnswer
  · exact .inl (iterate_unready h)
  · obtain ⟨r, -, hr⟩ := iterate_ready h
    exact .inr ⟨r, by rw [hr]; rfl⟩

/-- A command performed with no cancellation pending, when it answers: which, and to what state. -/
theorem performed_cases {i : Instr} {s t : State} (h : performed i s = .next t) (hc : s.cancelPending = false) :
    (i = .init ∧ t = initSequence s) ∨
    (i = .poll ∧ s.handleOpen = true ∧ t = pollCommand s) ∨
    (i = .read ∧ s.handleOpen = true ∧ t = readCommand s) ∨
    (i = .cal ∧ s.handleOpen = true ∧ calCommand s = .next t) ∨
    (i = .corr ∧ t = corrCommand s) ∨
    (i = .run ∧ s.handleOpen = true ∧ t = iterate { s with running := true }) := by
  cases i <;> simp only [performed, withHandle] at h
  · cases h; simp
  · split_ifs at h with ho; cases h; simp [ho]
  · split_ifs at h with ho; cases h; simp [ho]
  · split_ifs at h with ho; simp [ho, h]
  · cases h; simp
  · rcases runIteration_cases { s with running := true } with ⟨h1, _⟩ | ⟨_, _, he⟩ | ⟨_, ho, he⟩
    · rw [show s.cancelPending = true from h1] at hc; cases hc
    · rw [he] at h; cases h
    · rw [he] at h; cases h; simp [show s.handleOpen = true from ho]

end Sys2Proof.Machine
end

