-- ==== Sys2Proof/Laws/PerInstr.lean ====
section
/-!
SUPPORT. Statements about every instruction, one lemma per constructor.
-/

/-- Every instruction's word is a legal command word, and decoding it gives the instruction back (R82). -/
def Sys2Proof.Laws.RoundTrip.Statement (i : Sys2Proof.Instr) : Prop :=
  Sys2Proof.wordLegal (Sys2Proof.encode i) = true ∧ Sys2Proof.decode (Sys2Proof.encode i) = .ok i

namespace Sys2Proof.Laws.RoundTrip

theorem init : Statement .init := ⟨rfl, rfl⟩
theorem poll : Statement .poll := ⟨rfl, rfl⟩
theorem read : Statement .read := ⟨rfl, rfl⟩
theorem cal : Statement .cal := ⟨rfl, rfl⟩
theorem corr : Statement .corr := ⟨rfl, rfl⟩
theorem run : Statement .run := ⟨rfl, rfl⟩

end Sys2Proof.Laws.RoundTrip
end

