-- ==== Sys2Proof/Certificates/Slice0/Obligations.lean ====
section
/-!
DEFINITION. The statements for the provers. OBLIGATIONS.json says of each which rule of spec/ it formalises.
-/

open Sys2Proof Sys2Proof.Machine

/-! ### Encoding -/

/-- R81, R82: decoding the word of a well-formed command gives the command back, and the word is a legal one. -/
def Obligations.EncodeThenDecode : Prop :=
  ∀ i : Instr, i.wellFormed = true → wordLegal (encode i) = true ∧ decode (encode i) = .ok i

/-- R82: the six command words, matched on all eight bits, and no other word. -/
def Obligations.CommandCodesOfTheTable : Prop :=
  ∀ (w : Byte) (i : Instr), decode w = .ok i ↔
    (w = 0b00000001 ∧ i = .init) ∨ (w = 0b00000010 ∧ i = .poll) ∨ (w = 0b00000011 ∧ i = .read) ∨
      (w = 0b00000100 ∧ i = .cal) ∨ (w = 0b00000101 ∧ i = .corr) ∨ (w = 0b00000110 ∧ i = .run)

/-- R83: bit 7 of a response is `rdy`, bits 6:3 are 0, bits 2:0 the code 0 to 4. -/
def Obligations.ResponseFormat : Prop :=
  ∀ (r : Bool) (c : RespCode), (respWord r c).getLsbD 7 = r ∧ (respWord r c).extractLsb' 3 4 = 0 ∧
    (respWord r c).extractLsb' 0 3 =
      match c with
      | .ok => 0
      | .fatal => 1
      | .refused => 2
      | .illegal => 3
      | .stopped => 4

/-- R88, R132: the block tests the two low bits of the status byte and ignores bits 7:2. -/
def Obligations.StatusTestsTwoBits : Prop :=
  ∀ st : Byte, statusReady st = (statusAccRdy st || statusGyrRdy st)

/-! ### The step -/

/-- R205 step 5, R85: with the block idle and the host doing nothing, the command of a legal word at the command port is
performed. What stands around `exec` is the model's, not these rules': the host's move is past (log entry 9), the word
leaves the port (log entry 10), and the response to the last word is cleared (log entry 11). -/
def Obligations.StepRunsDecodedInstruction : Prop :=
  ∀ (s : State) (w : Byte) (rest : List Byte) (i : Instr), s.running = false → hostQuiet s → s.port = w :: rest →
    decode w = .ok i →
    step s = exec i { s with script := s.script.tail, port := rest, response := none }

/-- The word `withFetchWord` places is what the next step executes. -/
def Obligations.PlacedWordIsExecuted : Prop :=
  ∀ (s : State) (w : Nat) (i : Instr), decodeTableWord 8 w = some i →
    step (s.withFetchWord 8 w) = exec i { s with running := false, response := none }

/-- R84, R207: an illegal word (`0x00`, `0x07` to `0xFF`), in any state, changes nothing and is answered ILLEGAL. A
pending cancellation is not taken. -/
def Obligations.IllegalWordChangesNothing : Prop :=
  ∀ (s : State) (w : Byte) (rest : List Byte), s.running = false → hostQuiet s → s.port = w :: rest →
    (w.toNat = 0 ∨ 7 ≤ w.toNat) →
    step s = .next { s with script := s.script.tail, port := rest, response := some 0x03 }

/-- R240: a block with no command waits. -/
def Obligations.IdleBlockWaits : Prop :=
  ∀ s : State, s.running = false → hostQuiet s → s.port = [] → step s = .next { s with script := s.script.tail }

/-- R210, R222: raising the cancel input sets the latch before the block's turn; a word presented joins the port. -/
def Obligations.HostMovesComeFirst : Prop :=
  (∀ (s : State) (rest : List HostMove), s.script = .cancel :: rest →
    step s = blockTurn { s with script := rest, cancelPending := true }) ∧
  (∀ (s : State) (rest : List HostMove) (w : Byte), s.script = .present w :: rest →
    step s = blockTurn { s with script := rest, port := s.port ++ [w] })

/-! ### Reset -/

/-- R38: what reset leaves. `S`, `O` and `C` have no value the host could read. -/
def Obligations.ResetState : Prop :=
  ∀ c : Cfg, (State.resetWith c).dstate = .uninitialized ∧ (State.resetWith c).dstate.code = 0 ∧
    (State.resetWith c).handleOpen = false ∧
    (State.resetWith c).rdy = false ∧ (State.resetWith c).sValid = false ∧ (State.resetWith c).oValid = false ∧
    (State.resetWith c).cValid = false ∧ (State.resetWith c).cancelPending = false ∧
    hostReadS (State.resetWith c) = none ∧ hostReadO (State.resetWith c) = none ∧
    hostReadC (State.resetWith c) = none ∧
    (State.resetWith c).exitStatus = 0 ∧ (State.resetWith c).failStep = 0 ∧
    (State.resetWith c).out = [] ∧ (State.resetWith c).trace = [] ∧ (State.resetWith c).cfg = c

/-- R6, R248: the machine after reset holds the parameters that have a value; of the others only R8 is known. -/
def Obligations.ResetConfiguration : Prop :=
  ∃ c : Cfg, State.reset = State.resetWith c ∧ c.gravity = 980665 / 100000 ∧ c.threshold = 1 / 100 ∧
    c.targetSamples = 100 ∧ c.stallLimit = 1000 ∧ c.tPoll = 50 ∧ 100 ≤ c.tSettle1 ∧ c.skipHighAfterLowFail = true

/-- R240: the reset input, with an admitted configuration and no operation running, gives the state of R38 whatever the
state was. The oracle and the host's script go on (assumption 12); the port is emptied (assumption 13). -/
def Obligations.ResetInputResets : Prop :=
  ∀ (s : State) (c : Cfg) (rest : List HostMove), s.script = .reset c.toCfgFields :: rest → s.running = false →
    step s = .next { State.resetWith c with script := rest, answers := s.answers, draws := s.draws }

/-- R8: a configuration that breaks one of the conditions is refused. U5 of 93_implementation_defined.md: so is the
reset input while an operation runs. -/
def Obligations.ResetInputRefused : Prop :=
  (∀ (s : State) (c : CfgFields) (rest : List HostMove), s.script = .reset c :: rest → s.running = false →
    (255 < c.accelBase.toNat + 5 ∨ 255 < c.gyroBase.toNat + 5 ∨ ¬ c.usedRegs.Nodup ∨ c.targetSamples = 0 ∨
      c.threshold < 0) →
    step s = .refused .configNotAdmitted) ∧
  (∀ (s : State) (c : CfgFields) (rest : List HostMove), s.script = .reset c :: rest → s.running = true →
    step s = .refused .resetDuringOperation)

/-! ### Acceptance (R205) -/

/-- R206: a legal command in a terminal state, or not admitted by R205's table with no cancellation pending, changes
nothing and is answered REFUSED. Only reset leaves a terminal state. -/
def Obligations.RefusedCommandChangesNothing : Prop :=
  (∀ (i : Instr) (s : State),
    ((s.dstate = .failed ∨ s.dstate = .stopped) ∨ (s.cancelPending = false ∧ ¬ admitTable s i)) →
    exec i s = .next { s with response := some 0x02 }) ∧
  (∀ s t : State, (s.dstate = .failed ∨ s.dstate = .stopped) → s.running = false → noReset s → step s = .next t →
    t.dstate = s.dstate)

/-- R205 step 3, R211: with the latch set and the state not terminal, whatever the command, and at the top of an
iteration of RUN, the cancellation is taken: the handle released if open, `exit_status` 0, `STOPPED`, response STOPPED.
Everything else is unchanged. -/
def Obligations.PendingCancellationIsTaken : Prop :=
  (∀ (i : Instr) (s : State), s.dstate ≠ .failed → s.dstate ≠ .stopped → s.cancelPending = true →
    exec i s = .next { s with
      handleOpen := false, trace := if s.handleOpen then s.trace ++ [.close] else s.trace
      exitStatus := 0, dstate := .stopped, running := false, response := some 0x04 }) ∧
  (∀ s : State, s.running = true → hostQuiet s → s.cancelPending = true →
    step s = .next { s with
      script := s.script.tail
      handleOpen := false, trace := if s.handleOpen then s.trace ++ [.close] else s.trace
      exitStatus := 0, dstate := .stopped, running := false, response := some 0x04 })

/-- R210: the cancel input sets the latch, and nothing but reset clears it. -/
def Obligations.CancelLatchIsSticky : Prop :=
  ∀ s t : State, noReset s → (s.cancelPending = true ∨ ∃ rest, s.script = .cancel :: rest) → step s = .next t →
    t.cancelPending = true

/-- R54, R57: a bus operation with the handle closed stops under its own name. `Inv` rules such a state out. -/
def Obligations.ClosedHandleStops : Prop :=
  ∀ (i : Instr) (s : State), s.dstate = .ready → s.cancelPending = false → s.handleOpen = false → admitTable s i →
    i ≠ .corr → exec i s = .fault .busHandleClosed

/-! ### INIT -/

/-- R130, R203: INIT with all five primitives answered `OK`, and INIT whose primitive `k` is the first to answer `FAIL`:
the trace, the handle, the status registers and the response, all else unchanged. -/
def Obligations.InitRunsItsSequence : Prop :=
  (∀ s : State, s.dstate = .uninitialized → s.cancelPending = false → (∀ n, n < 5 → (s.answerAt n).isOk = true) →
    exec .init s = .next { s with
      dstate := .ready, handleOpen := true, trace := s.trace ++ initTrace s.cfg
      answers := s.answers.drop 5, draws := s.draws + 5, response := some 0x00 }) ∧
  (∀ (s : State) (k : Nat), k < 5 → s.dstate = .uninitialized → s.cancelPending = false → s.handleOpen = false →
    (∀ n, n < k → (s.answerAt n).isOk = true) → s.answerAt k = .fail →
    exec .init s = .next { s with
      dstate := .failed, exitStatus := 1, failStep := BitVec.ofNat 3 k, trace := s.trace ++ initFailTrace s.cfg k
      answers := s.answers.drop (k + 1), draws := s.draws + (k + 1), response := some 0x01 })

/-! ### POLL and READ -/

/-- R132, R133: POLL is one read of `REG_STATUS`. It sets `rdy` and answers it in bit 7: 1 exactly if the read answered
a byte with bit 0 or bit 1 set. All else is unchanged. -/
def Obligations.PollReportsDataReady : Prop :=
  ∀ (s : State) (r : Bool), canServe s →
    r = (match s.answerAt 0 with
      | .fail => false
      | .ok st => st.getLsbD 0 || st.getLsbD 1) →
    exec .poll s = .next { s with
      rdy := r, trace := s.trace ++ [.read s.cfg.devAddr s.cfg.regStatus (s.answerAt 0)]
      answers := s.answers.tail, draws := s.draws + 1, response := some (if r then 0x80 else 0x00) }

/-- R113, R134, R135: whatever the bus answers, it answers the six axes one by one, and READ then writes `S` from those
answers in bus order: an axis whose pair was read is its two's-complement value times the factor, any other is 0.0. All
else is unchanged. -/
def Obligations.ReadReadsAllSixAxes : Prop :=
  ∀ s : State, canServe s →
    (∃ r : Axis → AxisRead, s.answeredBy (sampleAnswers s.cfg r)) ∧
    (∀ r : Axis → AxisRead, s.answeredBy (sampleAnswers s.cfg r) →
      exec .read s = .next { s with
        regS := sampleValue s.cfg r, sValid := true, trace := s.trace ++ sampleEvents s.cfg r
        answers := s.answers.drop (sampleAnswers s.cfg r).length
        draws := s.draws + (sampleAnswers s.cfg r).length, response := some 0x00 })

/-! ### CAL -/

/-- R160, R162 to R165: CAL always reaches an exit and answers OK, and changes only what R39 lists. Done: `CNT` is the
target and the offsets are the means, less gravity on the vertical axis. Stalled: `STALL` is past its limit and the
offsets are 0. -/
def Obligations.CalAlwaysCompletes : Prop :=
  ∀ s : State, canServe s → s.oValid = false →
    ∃ (t : State) (evs : List Event), exec .cal s = .next t ∧
      (∀ e ∈ evs, isStatusRead s.cfg e ∨ isSampleRead s.cfg e) ∧
      t = { s with
        rdy := t.rdy, regS := t.regS, sValid := t.sValid, regSUM := t.regSUM, cnt := t.cnt, stall := t.stall
        regO := t.regO, oValid := true, trace := s.trace ++ evs, answers := s.answers.drop evs.length
        draws := s.draws + evs.length, response := some 0x00 } ∧
      ((t.cnt = s.cfg.targetSamples ∧ t.stall = 0 ∧
          ∀ i : Axis, t.regO.get i =
            t.regSUM.get i / (s.cfg.targetSamples : NumQ) - (if i = .az then s.cfg.gravity else 0)) ∨
        (t.cnt < s.cfg.targetSamples ∧ t.stall = s.cfg.stallLimit + 1 ∧ ∀ i : Axis, t.regO.get i = 0))

/-- R160 to R163: if the bus answers `TARGET_SAMPLES` ticks, each after at most `STALL_LIMIT` unready polls, the offsets
are the exact means of the samples read on them, less gravity on az; `S` is the last of them. That `SUM`, `CNT` and `STALL` are kept after CAL is the model's choice (log
entry 25). -/
def Obligations.CalibrationIsTheMeanOfReadySamples : Prop :=
  ∀ (s : State) (ks : List Tick), canServe s → s.oValid = false → ks.length = s.cfg.targetSamples →
    (∀ k ∈ ks, k.valid s.cfg) → s.answeredBy (ks.flatMap (Tick.answers s.cfg)) →
    exec .cal s = .next { s with
      rdy := true
      regS := (tickSamples s.cfg ks).getLast?.getD s.regS, sValid := true
      regSUM := Vec6.ofFn (axisSum (tickSamples s.cfg ks)), cnt := s.cfg.targetSamples, stall := 0
      regO := Vec6.ofFn fun i =>
        axisSum (tickSamples s.cfg ks) i / (s.cfg.targetSamples : NumQ) - (if i = .az then s.cfg.gravity else 0)
      oValid := true
      trace := s.trace ++ ks.flatMap (Tick.events s.cfg)
      answers := s.answers.drop (ks.flatMap (Tick.answers s.cfg)).length
      draws := s.draws + (ks.flatMap (Tick.answers s.cfg)).length
      response := some 0x00 }

/-- R164, R204: if fewer ticks than the target come and then `STALL_LIMIT + 1` unready polls in a row, every offset is
exactly 0.0 however many samples had been summed, and the answer is OK. That `SUM`, `CNT` and `STALL` are kept after
CAL is the model's choice (log entry 25). -/
def Obligations.StalledCalibrationGivesZeros : Prop :=
  ∀ (s : State) (ks : List Tick) (us : List Answer), canServe s → s.oValid = false →
    ks.length < s.cfg.targetSamples → (∀ k ∈ ks, k.valid s.cfg) → us.length = s.cfg.stallLimit + 1 →
    (∀ a ∈ us, answerUnready a) → s.answeredBy (ks.flatMap (Tick.answers s.cfg) ++ us) →
    exec .cal s = .next { s with
      rdy := false
      regS := (tickSamples s.cfg ks).getLast?.getD s.regS, sValid := s.sValid || !ks.isEmpty
      regSUM := Vec6.ofFn (axisSum (tickSamples s.cfg ks)), cnt := ks.length, stall := s.cfg.stallLimit + 1
      regO := Vec6.zero, oValid := true
      trace := s.trace ++ ks.flatMap (Tick.events s.cfg) ++ pollEvents s.cfg us
      answers := s.answers.drop (ks.flatMap (Tick.answers s.cfg) ++ us).length
      draws := s.draws + (ks.flatMap (Tick.answers s.cfg) ++ us).length
      response := some 0x00 }

/-- R160, R164, R165: whatever the bus answers, CAL ends in one of the two ways: there are ticks enough among the answers
to come and it leaves the offsets made of them, or there are too few, then a stall, and it leaves zeros. That `SUM`,
`CNT` and `STALL` are kept after CAL is the model's choice (log entry 25). -/
def Obligations.EveryCalibrationEndsOneWay : Prop :=
  ∀ s : State, canServe s → s.oValid = false →
    (∃ ks : List Tick, ks.length = s.cfg.targetSamples ∧ (∀ k ∈ ks, k.valid s.cfg) ∧
      s.answeredBy (ks.flatMap (Tick.answers s.cfg)) ∧
      exec .cal s = .next { s with
        rdy := true
        regS := (tickSamples s.cfg ks).getLast?.getD s.regS, sValid := true
        regSUM := Vec6.ofFn (axisSum (tickSamples s.cfg ks)), cnt := s.cfg.targetSamples, stall := 0
        regO := Vec6.ofFn fun i =>
          axisSum (tickSamples s.cfg ks) i / (s.cfg.targetSamples : NumQ) - (if i = .az then s.cfg.gravity else 0)
        oValid := true
        trace := s.trace ++ ks.flatMap (Tick.events s.cfg)
        answers := s.answers.drop (ks.flatMap (Tick.answers s.cfg)).length
        draws := s.draws + (ks.flatMap (Tick.answers s.cfg)).length
        response := some 0x00 }) ∨
    (∃ (ks : List Tick) (us : List Answer), ks.length < s.cfg.targetSamples ∧ (∀ k ∈ ks, k.valid s.cfg) ∧
      us.length = s.cfg.stallLimit + 1 ∧ (∀ a ∈ us, answerUnready a) ∧
      s.answeredBy (ks.flatMap (Tick.answers s.cfg) ++ us) ∧
      exec .cal s = .next { s with
        rdy := false
        regS := (tickSamples s.cfg ks).getLast?.getD s.regS, sValid := s.sValid || !ks.isEmpty
        regSUM := Vec6.ofFn (axisSum (tickSamples s.cfg ks)), cnt := ks.length, stall := s.cfg.stallLimit + 1
        regO := Vec6.zero, oValid := true
        trace := s.trace ++ ks.flatMap (Tick.events s.cfg) ++ pollEvents s.cfg us
        answers := s.answers.drop (ks.flatMap (Tick.answers s.cfg) ++ us).length
        draws := s.draws + (ks.flatMap (Tick.answers s.cfg) ++ us).length
        response := some 0x00 })

/-- R165: the number of polls of one CAL is at most `TARGET_SAMPLES * (STALL_LIMIT + 1)`, at least `TARGET_SAMPLES` when
it completes, and at least `STALL_LIMIT + 1` when it stalls. -/
def Obligations.CalibrationPollBounds : Prop :=
  ∀ s t : State, canServe s → s.oValid = false → exec .cal s = .next t →
    ∃ evs : List Event, t.trace = s.trace ++ evs ∧
      statusReads s.cfg evs ≤ s.cfg.targetSamples * (s.cfg.stallLimit + 1) ∧
      (t.cnt = s.cfg.targetSamples → s.cfg.targetSamples ≤ statusReads s.cfg evs) ∧
      (t.cnt < s.cfg.targetSamples → s.cfg.stallLimit + 1 ≤ statusReads s.cfg evs)

/-! ### CORR and RUN -/

/-- R180, R183: CORR writes `C`, per lane the difference of `S` and `O`, 0.0 below the threshold, and emits it. No bus
traffic; all else is unchanged. -/
def Obligations.CorrCorrectsAndEmits : Prop :=
  ∀ s : State, s.dstate = .ready → s.cancelPending = false → s.sValid = true → s.oValid = true →
    exec .corr s = .next { s with
      regC := corrected s.cfg.threshold s.regS s.regO, cValid := true
      out := s.out ++ [corrected s.cfg.threshold s.regS s.regO]
      trace := s.trace ++ [.emit (corrected s.cfg.threshold s.regS s.regO)]
      response := some 0x00 }

/-- R184, R185: RUN, accepted, makes its first iteration and goes on running. On an unready poll it waits `T_POLL` and
changes only `rdy`; on a ready tick it reads one sample, corrects it with `O` and emits one record. -/
def Obligations.RunMakesItsFirstIteration : Prop :=
  ∀ s : State, canServe s → s.oValid = true →
    (answerUnready (s.answerAt 0) →
      exec .run s = .next { s with
        running := true, rdy := false
        trace := s.trace ++ [.read s.cfg.devAddr s.cfg.regStatus (s.answerAt 0), .wait s.cfg.tPoll]
        answers := s.answers.tail, draws := s.draws + 1 }) ∧
    (¬ answerUnready (s.answerAt 0) →
      (∃ r : Axis → AxisRead, s.answeredBy (s.answerAt 0 :: sampleAnswers s.cfg r)) ∧
      (∀ r : Axis → AxisRead, s.answeredBy (s.answerAt 0 :: sampleAnswers s.cfg r) →
        exec .run s = .next { s with
          running := true, rdy := true, regS := sampleValue s.cfg r, sValid := true
          regC := corrected s.cfg.threshold (sampleValue s.cfg r) s.regO, cValid := true
          out := s.out ++ [corrected s.cfg.threshold (sampleValue s.cfg r) s.regO]
          trace := s.trace ++ .read s.cfg.devAddr s.cfg.regStatus (s.answerAt 0) :: sampleEvents s.cfg r ++
            [.emit (corrected s.cfg.threshold (sampleValue s.cfg r) s.regO)]
          answers := s.answers.drop (1 + (sampleAnswers s.cfg r).length)
          draws := s.draws + (1 + (sampleAnswers s.cfg r).length) }))

/-- R184, R185: a step of a RUN in progress with no cancellation pending is one more iteration, and RUN goes on. -/
def Obligations.RunGoesOnIterating : Prop :=
  ∀ s : State, s.running = true → hostQuiet s → s.cancelPending = false → s.handleOpen = true →
    (answerUnready (s.answerAt 0) →
      step s = .next { s with
        script := s.script.tail, rdy := false
        trace := s.trace ++ [.read s.cfg.devAddr s.cfg.regStatus (s.answerAt 0), .wait s.cfg.tPoll]
        answers := s.answers.tail, draws := s.draws + 1 }) ∧
    (∀ r : Axis → AxisRead, ¬ answerUnready (s.answerAt 0) →
      s.answeredBy (s.answerAt 0 :: sampleAnswers s.cfg r) →
      step s = .next { s with
        script := s.script.tail, rdy := true, regS := sampleValue s.cfg r, sValid := true
        regC := corrected s.cfg.threshold (sampleValue s.cfg r) s.regO, cValid := true
        out := s.out ++ [corrected s.cfg.threshold (sampleValue s.cfg r) s.regO]
        trace := s.trace ++ .read s.cfg.devAddr s.cfg.regStatus (s.answerAt 0) :: sampleEvents s.cfg r ++
          [.emit (corrected s.cfg.threshold (sampleValue s.cfg r) s.regO)]
        answers := s.answers.drop (1 + (sampleAnswers s.cfg r).length)
        draws := s.draws + (1 + (sampleAnswers s.cfg r).length) })

/-- R184: the only exit of RUN is the cancellation; it never answers OK. -/
def Obligations.RunEndsOnlyByCancellation : Prop :=
  ∀ s t : State, s.running = true → step s = .next t →
    (t.running = true ∧ t.dstate = s.dstate ∧ t.response = s.response) ∨
      (t.running = false ∧ t.cancelPending = true ∧ t.dstate = .stopped ∧ t.exitStatus = 0 ∧
        t.response = some 0x04)

/-- R93, R185, 90_conflicts.md C6: one `CYCLE` (POLL, and if it answered ready READ and CORR) and one iteration of RUN
issue the same bus traffic and the same record and leave the same registers. -/
def Obligations.CycleEqualsIteration : Prop :=
  ∀ s : State, canServe s → s.oValid = true →
    ∃ a : State, exec .poll s = .next a ∧
      (a.response = some 0x80 →
        ∃ b c : State, exec .read a = .next b ∧ exec .corr b = .next c ∧ c.response = some 0x00 ∧
          exec .run s = .next { c with running := true, response := s.response }) ∧
      (a.response ≠ some 0x80 →
        exec .run s = .next { a with
          running := true, response := s.response, trace := a.trace ++ [.wait s.cfg.tPoll] })

/-! ### Codec and filter -/

/-- R110: `Decode16` is the two's-complement rule, and a bijection between byte pairs and -32768..32767. -/
def Obligations.Decode16IsABijection : Prop :=
  (∀ lo hi : Byte,
    decode16 lo hi =
      (if 256 * hi.toNat + lo.toNat < 0x8000 then ((256 * hi.toNat + lo.toNat : Nat) : Int)
        else ((256 * hi.toNat + lo.toNat : Nat) : Int) - 65536) ∧
      -32768 ≤ decode16 lo hi ∧ decode16 lo hi ≤ 32767) ∧
  (∀ n : Int, -32768 ≤ n → n ≤ 32767 →
    ∃ lo hi : Byte, decode16 lo hi = n ∧ ∀ lo' hi' : Byte, decode16 lo' hi' = n → lo' = lo ∧ hi' = hi)

/-- R111: `Scale` is exact multiplication; 0 gives 0, the sign passes through, it is linear and order-independent. -/
def Obligations.ScaleIsLinear : Prop :=
  ∀ (a b : Int) (f : NumQ), scale a f = (a : NumQ) * f ∧ scale a f = f * (a : NumQ) ∧ scale 0 f = 0 ∧ scale a 0 = 0 ∧ scale (-a) f = - scale a f ∧
    scale (a + b) f = scale a f + scale b f

/-- R8, R52: under an admitted configuration no address sum wraps, axis `i` of a block stands at base plus twice its
place in it, and the sixteen registers are distinct. -/
def Obligations.AxisAddressesDoNotWrap : Prop :=
  ∀ (c : Cfg) (i : Axis),
    (axisBase c i).toNat =
      (if i.index < 3 then c.accelBase.toNat + 2 * i.index else c.gyroBase.toNat + 2 * (i.index - 3)) ∧
    (axisBase c i + 1).toNat = (axisBase c i).toNat + 1 ∧
    axisBase c i ≠ c.regStatus ∧ axisBase c i + 1 ≠ c.regStatus ∧
    (∀ j : Axis, axisBase c i ≠ axisBase c j + 1) ∧ (∀ j : Axis, axisBase c i = axisBase c j → i = j)

/-- R180, R181: a difference strictly inside the deadzone is replaced by 0.0, one at the threshold or beyond is kept
unchanged, and with `THRESHOLD = 0` nothing is zeroed. -/
def Obligations.DeadzoneIsStrict : Prop :=
  ∀ (th : NumQ) (s o : Vec6) (i : Axis),
    (|s.get i - o.get i| < th → (correct th s o).get i = 0) ∧
    (th ≤ |s.get i - o.get i| → (correct th s o).get i = s.get i - o.get i) ∧
    (correct 0 s o).get i = s.get i - o.get i

/-- R182: one operation of the threshold, the lane's sample and the lane's offset makes every lane of the corrected
record. -/
def Obligations.LanesAreIndependent : Prop :=
  ∃ lane : NumQ → NumQ → NumQ → NumQ, ∀ (th : NumQ) (s o : Vec6) (i : Axis),
    (correct th s o).get i = lane th (s.get i) (o.get i)

/-- R186 (a) to (e): zero bias, idempotence on zero bias, odd symmetry, a sample equal to the offsets, and the
end-to-end stream on an accelerometer axis. -/
def Obligations.FilterLaws : Prop :=
  (∀ (th : NumQ) (v : Vec6) (i : Axis),
    (correct th v Vec6.zero).get i = if |v.get i| < th then 0 else v.get i) ∧
  (∀ (th : NumQ) (v : Vec6), correct th (correct th v Vec6.zero) Vec6.zero = correct th v Vec6.zero) ∧
  (∀ (th : NumQ) (v o : Vec6),
    correct th (Vec6.ofFn fun i => -v.get i) (Vec6.ofFn fun i => -o.get i) =
      Vec6.ofFn fun i => -(correct th v o).get i) ∧
  (∀ (th : NumQ) (v : Vec6), 0 < th → correct th v v = Vec6.zero) ∧
  (∀ (v o : Vec6) (i : Axis), i.index < 3 → o.get i = 0 →
    (v.get i = 1 → (correct (1 / 100) v o).get i = 1) ∧
    (v.get i = 5 / 1000 → (correct (1 / 100) v o).get i = 0) ∧
    (v.get i = -2 / 100 → (correct (1 / 100) v o).get i = -2 / 100))

/-! ### Invariants -/

/-- The three invariants hold right after reset, with any admitted configuration. -/
def Obligations.InvariantsAtReset : Prop :=
  (∀ c : Cfg, Inv (State.resetWith c) ∧ OutInv (State.resetWith c) ∧ BusInv (State.resetWith c)) ∧
    Inv State.reset ∧ OutInv State.reset ∧ BusInv State.reset

/-- Every step keeps the invariant of the block: the driver state is never a transient one, the handle is open exactly
in `READY`, the status registers say why the session ended, the counters stay in range, and `READY` is reached only
through the whole of INIT. -/
def Obligations.StepKeepsInvariant : Prop :=
  ∀ s t : State, Inv s → step s = .next t → Inv t

/-- R25, R34, R37, R181: every step keeps the invariant of the output: OUT is what TRACE says was emitted, `C` is its
last record, and every record is outside the deadzone. -/
def Obligations.StepKeepsOutputInvariant : Prop :=
  ∀ s t : State, OutInv s → step s = .next t → OutInv t

/-- R51, R53 to R57, R136: every step keeps the bus discipline: only the transactions R136 lists, one `Open` in a
session, reads and writes only with the handle open, no primitive after `Close`. -/
def Obligations.StepKeepsBusDiscipline : Prop :=
  ∀ s t : State, Inv s → BusInv s → step s = .next t → BusInv t

/-- R202, R213: from a state that meets the invariant a step never stops, unless the environment applies a reset that R8
or U5 refuses. -/
def Obligations.StepNeverStops : Prop :=
  ∀ s : State, Inv s → (∀ c rest, s.script = .reset c :: rest → s.running = false ∧ c.isAdmitted = true) →
    ∃ t : State, step s = .next t

/-! ### Rules about every command -/

/-- R24: once valid the offsets are never written again but by reset. -/
def Obligations.OffsetsAreWrittenOnce : Prop :=
  ∀ s t : State, noReset s → s.oValid = true → step s = .next t → t.regO = s.regO ∧ t.oValid = true

/-- R31: reset takes the configuration the environment supplies, and no other step writes it. -/
def Obligations.ConfigurationIsNeverWritten : Prop :=
  (∀ c : Cfg, (State.resetWith c).cfg = c) ∧
  (∀ (s : State) (c : Cfg) (rest : List HostMove), s.script = .reset c.toCfgFields :: rest → s.running = false →
    ∃ t : State, step s = .next t ∧ t.cfg = c) ∧
  (∀ s t : State, noReset s → step s = .next t → t.cfg = s.cfg)

/-- R34, R37: records and events are only appended. -/
def Obligations.OutputOnlyGrows : Prop :=
  ∀ s t : State, noReset s → step s = .next t → s.out <+: t.out ∧ s.trace <+: t.trace

/-- R39: who writes what. -/
def Obligations.WritersOfEachRegister : Prop :=
  ∀ (i : Instr) (s t : State), exec i s = .next t →
    (i ≠ .read → i ≠ .cal → i ≠ .run → t.regS = s.regS ∧ t.sValid = s.sValid) ∧
    (i ≠ .cal → t.regO = s.regO ∧ t.oValid = s.oValid ∧ t.regSUM = s.regSUM ∧ t.cnt = s.cnt ∧ t.stall = s.stall) ∧
    (i ≠ .corr → i ≠ .run → t.regC = s.regC ∧ t.cValid = s.cValid ∧ t.out = s.out) ∧
    (i ≠ .poll → i ≠ .cal → i ≠ .run → t.rdy = s.rdy) ∧
    (i ≠ .init → s.cancelPending = false →
      t.dstate = s.dstate ∧ t.handleOpen = s.handleOpen ∧ t.exitStatus = s.exitStatus ∧ t.failStep = s.failStep) ∧
    t.cancelPending = s.cancelPending ∧ t.cfg = s.cfg ∧ t.port = s.port ∧ t.script = s.script

/-- R55: only INIT writes to the bus. -/
def Obligations.OnlyInitWritesTheBus : Prop :=
  ∀ (i : Instr) (s t : State), i ≠ .init → exec i s = .next t →
    ∃ evs : List Event, t.trace = s.trace ++ evs ∧ ∀ e ∈ evs, isWrite e = false

/-- R201: in `READY` no answer of the bus is fatal: with no cancellation pending the block stays in `READY`, its status
registers unchanged, whatever the command. -/
def Obligations.BusReadFailureIsNotFatal : Prop :=
  ∀ (i : Instr) (s : State), s.dstate = .ready → s.cancelPending = false → s.handleOpen = true →
    ∃ t : State, exec i s = .next t ∧ t.dstate = .ready ∧ t.handleOpen = true ∧ t.exitStatus = s.exitStatus ∧
      t.failStep = s.failStep

/-- R26, R28: no step reads `S`, `O` or `C` while it holds no value, or what CAL left in `SUM`, `CNT` and `STALL`: two
states that differ only there step to states that differ only there. -/
def Obligations.UnwrittenRegistersAreNeverRead : Prop :=
  ∀ s t : State, (s.running = true → s.oValid = true) → s.visible = t.visible →
    sameOutcome State.visible (step s) (step t)

/-- R30: nothing inside the block branches on the stored `rdy`. -/
def Obligations.StoredRdyIsNeverRead : Prop :=
  ∀ (s : State) (b : Bool),
    sameOutcome (fun u => { u with rdy := false }) (step s) (step { s with rdy := b })

/-- R25, R26, R32: the host reads `S`, `O` and `C` only when valid, the exit status only in a terminal state, and the
failing step only in `FAILED`. -/
def Obligations.HostReadsOnlyValidRegisters : Prop :=
  ∀ s : State, (hostReadS s = some s.regS ↔ s.sValid = true) ∧ (hostReadO s = some s.regO ↔ s.oValid = true) ∧
    (hostReadC s = some s.regC ↔ s.cValid = true) ∧ (s.sValid = false → hostReadS s = none) ∧
    (s.oValid = false → hostReadO s = none) ∧ (s.cValid = false → hostReadC s = none) ∧
    (hostReadExit s ≠ none ↔ s.dstate = .failed ∨ s.dstate = .stopped) ∧
    (hostReadFailStep s ≠ none ↔ s.dstate = .failed)
end

