-- ==== Sys2Proof/Tests/Slice0.lean ====
section
/-!
SUPPORT. The tests: what is refused as ill-formed, words written out bit by bit from 30_encoding.md, vectors of
95_test_vectors.md, one step each.
-/

namespace Sys2Proof.Tests

open Sys2Proof Sys2Proof.Machine

/-! ### States -/

/-- CFG_T of 95_test_vectors.md section 2. -/
def cfgT : Cfg := {}

/-- CFG_T2: two samples, at most three unready polls between them. -/
def cfgT2 : Cfg := { targetSamples := 2, stallLimit := 3 }

/-- Reset with CFG_T2, and the answers of the bus to come. -/
def atReset (answers : List Answer) : State := { State.resetWith cfgT2 with answers := answers }

/-- After V-INIT-1, and the answers of the bus to come. -/
def atReady (answers : List Answer) : State :=
  { State.resetWith cfgT2 with
    dstate := .ready, handleOpen := true, trace := initTrace cfgT2, response := some 0x00, answers := answers }

/-- `READY` with the offsets all 0.0 (the start of V-ITER-1). -/
def calibrated (answers : List Answer) : State := { atReady answers with oValid := true }

/-- `READY` with the sample and the offsets of V-CORR-1. -/
def sampled : State :=
  { calibrated [] with sValid := true, regS := { ax := 1, ay := 5 / 1000, az := -2 / 100, gx := 0, gy := 0, gz := 0 } }

/-- RUN accepted and going on. -/
def live (answers : List Answer) : State := { calibrated answers with running := true, response := none }

/-- The next state of an outcome. -/
def after : Host.Outcome State Fault Refusal → Option State
  | .next s => some s
  | .fault _ => none
  | .refused _ => none

/-- Twelve bytes as the answers of a sample. -/
def bytes (bs : List Byte) : List Answer := bs.map .ok

/-- The answers to a sample of V-RS-2: `[2000, 10, -40, 5, 2, -5]`. -/
def sampleRS2 : List Answer := bytes [0xD0, 0x07, 0x0A, 0x00, 0xD8, 0xFF, 0x05, 0x00, 0x02, 0x00, 0xFB, 0xFF]

/-- A tick of V-CAL-2: status `0x01`, then the sample `[100, 100, 19613, 100, 100, 100]`. -/
def tickCal2 : List Answer :=
  .ok 0x01 :: bytes [0x64, 0x00, 0x64, 0x00, 0x9D, 0x4C, 0x64, 0x00, 0x64, 0x00, 0x64, 0x00]

/-! ### Well-formedness: what the checks refuse -/

/-- R81: `0x81` has a non-zero upper field. -/
theorem test_zeroField_refused : wordZeroFieldOk 0x81 = false := by decide

/-- R82, R84: operation codes 0 and 7 are not allocated. -/
theorem test_op_refused : wordOpAllocated 0x00 = false ∧ wordOpAllocated 0x07 = false := by decide

/-- R82: the six words are legal, and no other. -/
theorem test_wordLegal : ∀ w : Byte, wordLegal w = true ↔ w ∈ [1, 2, 3, 4, 5, 6] := by decide

/-- Each of the six commands is well-formed. -/
theorem test_instr_wellFormed : [Instr.init, .poll, .read, .cal, .corr, .run].all Instr.wellFormed = true := by decide

/-- R8: a block that passes 255, a shared address, no samples, a negative threshold; R6: a short settle wait. -/
theorem test_cfg_refused :
    ({ accelBase := 0xFB } : CfgFields).basesFit = false ∧ ({ regStatus := 0x20 } : CfgFields).regsDistinct = false ∧
    ({ targetSamples := 0 } : CfgFields).targetPositive = false ∧
    ({ threshold := -1 / 100 } : CfgFields).thresholdNonneg = false ∧
    ({ tSettle1 := 99 } : CfgFields).settleLongEnough = false := by decide +kernel

/-- R8: the last base that fits, a threshold of 0, and CFG_T2 (`Both satisfy 00_scope.md rule R8`). -/
theorem test_cfg_admitted :
    ({ accelBase := 0xFA } : CfgFields).isAdmitted = true ∧ ({ threshold := 0 } : CfgFields).isAdmitted = true ∧
    cfgT2.toCfgFields.isAdmitted = true := by decide +kernel

/-! ### Decode: words from 30_encoding.md R82, R83, R84 -/

theorem test_decode_init : decode 0b00000001 = .ok .init := by decide
theorem test_decode_poll : decode 0b00000010 = .ok .poll := by decide
theorem test_decode_read : decode 0b00000011 = .ok .read := by decide
theorem test_decode_cal : decode 0b00000100 = .ok .cal := by decide
theorem test_decode_corr : decode 0b00000101 = .ok .corr := by decide
theorem test_decode_run : decode 0b00000110 = .ok .run := by decide

/-- V-ILL-1, V-ILL-2, V-ILL-3b, V-ILL-4: rejected by name. -/
theorem test_decode_illegal :
    decode 0x00 = .error (.unallocatedOp 0x00) ∧ decode 0x07 = .error (.unallocatedOp 0x07) ∧
    decode 0x0F = .error (.unallocatedOp 0x0F) ∧ decode 0x81 = .error (.zeroField 0x81) := by decide

theorem test_decodeTableWord :
    [1, 2, 3, 4, 5, 6].map (decodeTableWord 8) =
      [some .init, some .poll, some .read, some .cal, some .corr, some .run] ∧
    decodeTableWord 8 0x81 = none := by decide

/-- R83 and section 7: the response bytes. -/
theorem test_respWord :
    respWord false .ok = 0x00 ∧ respWord true .ok = 0x80 ∧ respWord false .fatal = 0x01 ∧
    respWord false .refused = 0x02 ∧ respWord false .illegal = 0x03 ∧ respWord false .stopped = 0x04 := by decide

/-- R87, R88: `SEL_BYTE` `0x21` is scale 2, rate 1; status `0x02` has only `gyr_rdy`. -/
theorem test_device_fields :
    ctrlScale 0x21 = 2 ∧ ctrlRate 0x21 = 1 ∧ statusAccRdy 0x02 = false ∧ statusGyrRdy 0x02 = true := by decide

/-! ### Codec, addresses, filter -/

/-- V-DEC-2, -3, -7, -8, -14. -/
theorem test_decode16 :
    decode16 0xFF 0x7F = 32767 ∧ decode16 0x00 0x80 = -32768 ∧ decode16 0x34 0x12 = 4660 ∧
    decode16 0x80 0x00 = 128 ∧ decode16 0x18 0xFC = -1000 := by decide

/-- V-SCL-4, V-SCL-14. -/
theorem test_scale :
    scale 19613 (factor cfgT .az) = 98065 / 10000 ∧ scale (-32768) (factor cfgT .gy) = -131072 / 1000 := by
  decide +kernel

/-- The address check of section 3.3. -/
theorem test_axisBase : axes.map (axisBase cfgT) = [0x20, 0x22, 0x24, 0x10, 0x12, 0x14] := by decide +kernel

/-- V-AX-6: the value, and low byte read before high byte. -/
theorem test_readAxis_both :
    (readAxis .gy (atReady (bytes [0x00, 0x80]))).1 = -131072 / 1000 ∧
    (readAxis .gy (atReady (bytes [0x00, 0x80]))).2.trace.drop 7 =
      [.read 0x55 0x12 (.ok 0x00), .read 0x55 0x13 (.ok 0x80)] := by decide +kernel

/-- V-AX-9 and V-AX-7: 0.0, and after a failed low byte no high read. -/
theorem test_readAxis_fail :
    (readAxis .az (atReady [.ok 0x9D, .fail])).1 = 0 ∧
    (readAxis .az (atReady [.fail, .ok 0x4C])).1 = 0 ∧
    (readAxis .az (atReady [.fail, .ok 0x4C])).2.trace.drop 7 = [.read 0x55 0x24 .fail] := by decide +kernel

/-- V-AX-8: with `SKIP_HIGH_AFTER_LOW_FAIL` false the high byte is read and discarded. -/
theorem test_readAxis_noskip :
    let s : State := { State.resetWith { skipHighAfterLowFail := false } with answers := [.fail, .ok 0x4C] }
    (readAxis .az s).1 = 0 ∧ (readAxis .az s).2.trace = [.read 0x55 0x24 .fail, .read 0x55 0x25 (.ok 0x4C)] := by
  decide +kernel

/-- V-COR-4, V-COR-5, V-COR-6, V-COR-13, V-COR-16. -/
theorem test_correctLane :
    correctLane (1 / 100) (1 / 100) 0 = 1 / 100 ∧ correctLane (1 / 100) (99999 / 10000000) 0 = 0 ∧
    correctLane (1 / 100) (-1 / 100) 0 = -1 / 100 ∧ correctLane (1 / 100) 0 (3 / 100) = -3 / 100 ∧
    correctLane (1 / 100) (2 / 100) 0 = 2 / 100 := by decide +kernel

/-! ### The six commands, one step each -/

/-- V-INIT-1: the four writes in order, `READY`, OK. -/
theorem test_init_ok :
    (after (exec .init (atReset (bytes [0, 0, 0, 0, 0])))).map (fun t => (t.dstate, t.response, t.trace)) =
      some (.ready, some 0x00, [.opened 1 true, .write 0x55 0x03 0x01 true, .wait 100, .write 0x55 0x01 0x21 true,
        .write 0x55 0x02 0x21 true, .write 0x55 0x03 0x40 true, .wait 0]) := by decide +kernel

/-- V-INIT-5 and P4: the gyroscope's control write fails. -/
theorem test_init_fatal :
    (after (exec .init (atReset (bytes [0, 0, 0] ++ [.fail])))).map
      (fun t => (t.dstate, t.failStep, t.exitStatus, t.response, t.trace.drop 3)) =
      some (.failed, 3, 1, some 0x01,
        [.write 0x55 0x01 0x21 true, .write 0x55 0x02 0x21 false, .close]) := by decide +kernel

/-- V-PR-3: bit 1 alone is ready. -/
theorem test_poll_ready :
    (after (exec .poll (atReady [.ok 0x02]))).map (fun t => (t.rdy, t.response)) = some (true, some 0x80) := by
  decide +kernel

/-- V-PR-6 and V-PR-10: bits 7:2 do not count, and a failed read is not ready. -/
theorem test_poll_unready :
    (after (exec .poll (atReady [.ok 0xFC]))).map (fun t => (t.rdy, t.response)) = some (false, some 0x00) ∧
    (after (exec .poll { atReady [.fail] with rdy := true })).map (fun t => (t.rdy, t.response)) =
      some (false, some 0x00) := by decide +kernel

/-- V-RS-2, with `rdy` 0. -/
theorem test_read_sample :
    (after (exec .read (atReady sampleRS2))).map (fun t => (t.regS, t.sValid, t.response)) =
      some ({ ax := 1, ay := 5 / 1000, az := -2 / 100, gx := 2 / 100, gy := 8 / 1000, gz := -2 / 100 }, true,
        some 0x00) := by decide +kernel

/-- V-RS-3: six failed low reads, at the six base addresses. -/
theorem test_read_fail :
    (after (exec .read (atReady (List.replicate 6 .fail)))).map (fun t => (t.regS, t.trace.drop 7)) =
      some (Vec6.zero, [.read 0x55 0x20 .fail, .read 0x55 0x22 .fail, .read 0x55 0x24 .fail, .read 0x55 0x10 .fail,
        .read 0x55 0x12 .fail, .read 0x55 0x14 .fail]) := by decide +kernel

/-- V-CAL-2. -/
theorem test_cal_done :
    (after (exec .cal (atReady (tickCal2 ++ tickCal2)))).map (fun t => (t.regO, t.oValid, t.rdy, t.response)) =
      some ({ ax := 5 / 100, ay := 5 / 100, az := -15 / 100000, gx := 4 / 10, gy := 4 / 10, gz := 4 / 10 }, true, true,
        some 0x00) := by decide +kernel

/-- V-CAL-8: stalled on the fourth poll, answered OK. -/
theorem test_cal_stalled :
    (after (exec .cal (atReady (List.replicate 4 .fail)))).map
      (fun t => (t.regO, t.oValid, t.sValid, t.stall, t.response)) =
      some (Vec6.zero, true, false, 4, some 0x00) := by decide +kernel

/-- V-CORR-1. -/
theorem test_corr :
    (after (exec .corr sampled)).map (fun t => (t.regC, t.cValid, t.out, t.response)) =
      some ({ ax := 1, ay := 0, az := -2 / 100, gx := 0, gy := 0, gz := 0 }, true,
        [{ ax := 1, ay := 0, az := -2 / 100, gx := 0, gy := 0, gz := 0 }], some 0x00) := by decide +kernel

/-- Section 7.1: CORR without offsets is refused. -/
theorem test_corr_refused :
    (after (exec .corr { sampled with oValid := false })).map (fun t => (t.response, t.out)) =
      some (some 0x02, []) := by decide +kernel

/-- V-ITER-1: a ready tick, one record, RUN goes on. -/
theorem test_run_ready :
    (after (exec .run (calibrated (.ok 0x01 :: bytes [0xD0, 0x07, 0, 0, 0, 0, 0, 0, 0, 0, 0, 0])))).map
      (fun t => (t.regC, t.out, t.rdy, t.running)) =
      some ({ ax := 1, ay := 0, az := 0, gx := 0, gy := 0, gz := 0 },
        [{ ax := 1, ay := 0, az := 0, gx := 0, gy := 0, gz := 0 }], true, true) := by decide +kernel

/-- V-ITER-2 and V-CAN-7: an unready poll waits; the cancellation ends RUN at the top of the next iteration. -/
theorem test_run_wait_then_cancel :
    (after (exec .run (calibrated [.ok 0x00]))).map (fun t => (t.out, t.trace.drop 7, t.running)) =
      some ([], [.read 0x55 0x04 (.ok 0x00), .wait 50], true) ∧
    (after (step { live [] with script := [.cancel] })).map
      (fun t => (t.dstate, t.exitStatus, t.response, t.running, t.trace.drop 7)) =
      some (.stopped, 0, some 0x04, false, [.close]) := by decide +kernel

/-! ### Acceptance, illegal words, the host, reset -/

/-- V-ILL-4 and V-ILL-6: answered ILLEGAL; the cancellation is not taken. -/
theorem test_illegal :
    (after (step { atReset [] with port := [0x81] })).map (fun t => (t.dstate, t.response, t.trace)) =
      some (.uninitialized, some 0x03, []) ∧
    (after (step { atReady [] with port := [0x00], cancelPending := true })).map
      (fun t => (t.dstate, t.response, t.cancelPending)) = some (.ready, some 0x03, true) := by decide +kernel

/-- V-CAN-1, V-CAN-3, V-CAN-5: no Close of a closed handle; before Admit; not in `FAILED`. -/
theorem test_cancel :
    (after (exec .init { atReset [] with cancelPending := true })).map (fun t => (t.dstate, t.response, t.trace)) =
      some (.stopped, some 0x04, []) ∧
    (after (exec .cal { calibrated [] with cancelPending := true })).map (fun t => (t.dstate, t.response)) =
      some (.stopped, some 0x04) ∧
    (after (exec .init { atReset [] with cancelPending := true, dstate := .failed, exitStatus := 1 })).map
      (fun t => (t.dstate, t.response, t.exitStatus)) = some (.failed, some 0x02, 1) := by decide +kernel

/-- R57, R205: one step accepts the word the host presents in it. -/
theorem test_present :
    (after (step { atReady [.ok 0x01] with script := [.present 0x02] })).map (fun t => (t.response, t.port)) =
      some (some 0x80, []) := by decide +kernel

/-- V-RST-2: reset out of `FAILED`, with no bus traffic. -/
theorem test_reset :
    (after (step { atReset [] with
      dstate := .failed, exitStatus := 1, failStep := 3, trace := [.close], script := [.reset {}] })).map
      (fun t => (t.dstate, t.exitStatus, t.failStep, t.trace)) = some (.uninitialized, 0, 0, []) := by decide +kernel

/-- R38: what the host reads after reset. -/
theorem test_reset_reads :
    hostReadS State.reset = none ∧ hostReadO State.reset = none ∧ hostReadC State.reset = none ∧
    State.reset.dstate.code = 0 := ⟨rfl, rfl, rfl, rfl⟩

/-- R20's table: the six values of `dstate`. -/
theorem test_dstate_code :
    [DState.uninitialized, .reset, .configured, .ready, .failed, .stopped].map DState.code = [0, 1, 2, 3, 4, 5] := by
  decide

/-- The host's own question: each of the six words runs as the first instruction after reset. Not INIT is refused. -/
theorem test_fetchWord :
    (∃ t, step (State.reset.withFetchWord 8 0x01) = .next t) ∧
    (∃ t, step (State.reset.withFetchWord 8 0x02) = .next t ∧ t.response = some 0x02) ∧
    (∃ t, step (State.reset.withFetchWord 8 0x06) = .next t ∧ t.response = some 0x02) :=
  ⟨⟨_, rfl⟩, ⟨_, rfl, rfl⟩, ⟨_, rfl, rfl⟩⟩

end Sys2Proof.Tests
end

