-- ==== Sys2Proof/Tests/Witnesses.lean ====
section
/-!
SUPPORT. For the obligations on encoding, the step, reset, acceptance, INIT, POLL and READ that have hypotheses: states
and operands that meet them, at the boundaries of each clause.
-/

namespace Sys2Proof.Tests

open Sys2Proof Sys2Proof.Machine

theorem canServe_atReady (answers : List Answer) : canServe (atReady answers) := ⟨rfl, rfl, rfl⟩

theorem canServe_calibrated (answers : List Answer) : canServe (calibrated answers) := ⟨rfl, rfl, rfl⟩

theorem inv_atReady (answers : List Answer) : Inv (atReady answers) where
  between := by simp [atReady]
  handle := by simp [atReady]
  exit := rfl
  failStep := rfl
  live := by simp [atReady, State.resetWith]
  noData := by simp [atReady]
  corrected := by simp [atReady, State.resetWith]
  counters := by simp [atReady, State.resetWith]
  fresh := by simp [atReady]
  initialised := fun _ => List.prefix_rfl

theorem outInv_atReady (answers : List Answer) : OutInv (atReady answers) where
  traced := rfl
  valid := by simp [atReady, State.resetWith]
  latest := by simp [atReady, State.resetWith]
  filtered := by simp [atReady, State.resetWith]

theorem busInv_atReady (answers : List Answer) : BusInv (atReady answers) where
  allowed := by simp [atReady, State.resetWith, initTrace, eventAllowed]
  phase := ⟨.open, rfl, by simp [atReady]⟩

theorem noReset_of_script {s : State} (h : s.script = []) : noReset s := by simp [noReset, h]

/-- A tick whose three unready polls are as many as CFG_T2 bears (V-CAL-11). -/
def lateTick : Tick := { unready := [.ok 0x00, .fail, .ok 0xFC], status := 0x02, reads := fun _ => .both 0x64 0x00 }

theorem lateTick_valid : lateTick.valid cfgT2 := by
  refine ⟨?_, by decide, by decide⟩
  simp [lateTick, answerUnready]

theorem witness_EncodeThenDecode : Instr.run.wellFormed = true := rfl

theorem witness_StepRunsDecodedInstruction :
    ∃ (s : State) (w : Byte) (rest : List Byte) (i : Instr), s.running = false ∧ hostQuiet s ∧ s.port = w :: rest ∧
      decode w = .ok i := ⟨{ atReady [] with port := [0x02] }, 0x02, [], .poll, rfl, .inl rfl, rfl, rfl⟩

theorem witness_PlacedWordIsExecuted : decodeTableWord 8 6 = some .run := by decide

/-- The illegal words next to the legal ones, and the last. -/
theorem witness_IllegalWordChangesNothing :
    ∀ w ∈ ([0x00, 0x07, 0xFF] : List Byte), ∃ (s : State) (rest : List Byte), s.running = false ∧ hostQuiet s ∧
      s.port = w :: rest ∧ (w.toNat = 0 ∨ 7 ≤ w.toNat) := by
  intro w hw
  refine ⟨{ atReady [] with port := [w] }, [], rfl, .inl rfl, rfl, ?_⟩
  revert w; decide

theorem witness_IdleBlockWaits : ∃ s : State, s.running = false ∧ hostQuiet s ∧ s.port = [] :=
  ⟨atReset [], rfl, .inl rfl, rfl⟩

theorem witness_HostMovesComeFirst :
    (∃ (s : State) (rest : List HostMove), s.script = .cancel :: rest) ∧
    (∃ (s : State) (rest : List HostMove) (w : Byte), s.script = .present w :: rest) :=
  ⟨⟨{ atReset [] with script := [.cancel] }, [], rfl⟩, ⟨{ atReset [] with script := [.present 1] }, [], 1, rfl⟩⟩

theorem witness_ResetInputResets :
    ∃ (s : State) (c : Cfg) (rest : List HostMove), s.script = .reset c.toCfgFields :: rest ∧ s.running = false :=
  ⟨{ atReset [] with script := [.reset cfgT.toCfgFields] }, cfgT, [], rfl, rfl⟩

/-- Each of R8's conditions broken by itself, the first two at the first base that does not fit. -/
theorem witness_ResetInputRefused :
    255 < ({ accelBase := 0xFB } : CfgFields).accelBase.toNat + 5 ∧
    255 < ({ gyroBase := 0xFB } : CfgFields).gyroBase.toNat + 5 ∧
    ¬ ({ regStatus := 0x20 } : CfgFields).usedRegs.Nodup ∧
    ({ targetSamples := 0 } : CfgFields).targetSamples = 0 ∧
    ({ threshold := -1 } : CfgFields).threshold < 0 ∧
    (∀ c : CfgFields, ∃ (s : State) (rest : List HostMove), s.script = .reset c :: rest ∧ s.running = false) ∧
    (∀ c : CfgFields, ∃ (s : State) (rest : List HostMove), s.script = .reset c :: rest ∧ s.running = true) :=
  ⟨by decide +kernel, by decide +kernel, by decide +kernel, rfl, by decide +kernel,
    fun c => ⟨{ atReset [] with script := [.reset c] }, [], rfl, rfl⟩,
    fun c => ⟨{ live [] with script := [.reset c] }, [], rfl, rfl⟩⟩

/-- Both terminal states; INIT not admitted in `READY`; and a step in a terminal state. -/
theorem witness_RefusedCommandChangesNothing :
    (∃ s : State, s.dstate = .failed) ∧ (∃ s : State, s.dstate = .stopped) ∧
    (∃ s : State, s.cancelPending = false ∧ ¬ admitTable s .init) ∧
    (∃ s t : State, s.dstate = .stopped ∧ s.running = false ∧ noReset s ∧ step s = .next t) :=
  ⟨⟨{ atReset [] with dstate := .failed }, rfl⟩, ⟨{ atReset [] with dstate := .stopped }, rfl⟩,
    ⟨atReady [], rfl, by simp [admitTable, atReady]⟩,
    ⟨{ atReset [] with dstate := .stopped, port := [0x01] }, _, rfl, rfl, noReset_of_script rfl, rfl⟩⟩

theorem witness_PendingCancellationIsTaken :
    (∃ s : State, s.dstate ≠ .failed ∧ s.dstate ≠ .stopped ∧ s.cancelPending = true) ∧
    (∃ s : State, s.running = true ∧ hostQuiet s ∧ s.cancelPending = true) :=
  ⟨⟨{ atReady [] with cancelPending := true }, by simp [atReady], by simp [atReady], rfl⟩,
    ⟨{ live [] with cancelPending := true }, rfl, .inl rfl, rfl⟩⟩

theorem witness_CancelLatchIsSticky :
    (∃ s t : State, noReset s ∧ s.cancelPending = true ∧ step s = .next t) ∧
    (∃ (s t : State) (rest : List HostMove), noReset s ∧ s.script = .cancel :: rest ∧ step s = .next t) :=
  ⟨⟨{ atReady [] with cancelPending := true, port := [0x02] }, _, noReset_of_script rfl, rfl, rfl⟩,
    ⟨{ atReady [] with script := [.cancel] }, _, [], by simp [noReset], rfl, rfl⟩⟩

theorem witness_ClosedHandleStops :
    ∀ i ∈ [Instr.poll, .read, .cal, .run], ∃ s : State, s.dstate = .ready ∧ s.cancelPending = false ∧
      s.handleOpen = false ∧ admitTable s i ∧ i ≠ .corr := by
  intro i hi
  refine ⟨{ atReady [] with handleOpen := false, oValid := decide (i = .run) }, rfl, rfl, rfl, ?_⟩
  simp at hi
  rcases hi with rfl | rfl | rfl | rfl <;> simp [admitTable, atReady]

/-- Five successes; a failure of the first primitive; a failure of the last. -/
theorem witness_InitRunsItsSequence :
    (∃ s : State, s.dstate = .uninitialized ∧ s.cancelPending = false ∧
      ∀ n, n < 5 → (s.answerAt n).isOk = true) ∧
    (∀ k ∈ [0, 4], ∃ s : State, s.dstate = .uninitialized ∧ s.cancelPending = false ∧ s.handleOpen = false ∧
      (∀ n, n < k → (s.answerAt n).isOk = true) ∧ s.answerAt k = .fail) := by
  refine ⟨⟨atReset (bytes [0, 0, 0, 0, 0]), rfl, rfl, ?_⟩, ?_⟩
  · intro n hn
    interval_cases n <;> rfl
  · intro k hk
    refine ⟨atReset (List.replicate k (.ok 0) ++ [.fail]), rfl, rfl, rfl, ?_⟩
    simp at hk
    rcases hk with rfl | rfl
    · exact ⟨by simp, rfl⟩
    · exact ⟨by intro n hn; interval_cases n <;> rfl, rfl⟩

theorem witness_PollReportsDataReady :
    ∀ a : Answer, ∃ (s : State) (r : Bool), canServe s ∧ s.answerAt 0 = a ∧
      r = (match s.answerAt 0 with
        | .fail => false
        | .ok st => st.getLsbD 0 || st.getLsbD 1) := fun a => ⟨atReady [a], _, canServe_atReady _, rfl, rfl⟩

theorem witness_ReadReadsAllSixAxes :
    ∀ r : Axis → AxisRead, ∃ s : State, canServe s ∧ s.answeredBy (sampleAnswers s.cfg r) :=
  fun r => ⟨atReady (sampleAnswers cfgT2 r), canServe_atReady _,
    answeredBy_of_script (rest := []) (List.append_nil _).symm⟩

end Sys2Proof.Tests
end

