-- ==== Sys2Proof/Tests/Witnesses2.lean ====
section
/-!
SUPPORT. The same as Witnesses.lean for the obligations on CAL, CORR, RUN, the codec, the filter, the invariants and the
rules about every command.
-/

namespace Sys2Proof.Tests

open Sys2Proof Sys2Proof.Machine

theorem witness_CalAlwaysCompletes : ∃ s : State, canServe s ∧ s.oValid = false :=
  ⟨atReady [], canServe_atReady _, rfl⟩

/-- Two ticks, each after as many unready polls as the limit allows. -/
theorem witness_CalibrationIsTheMeanOfReadySamples :
    ∃ (s : State) (ks : List Tick), canServe s ∧ s.oValid = false ∧ ks.length = s.cfg.targetSamples ∧
      (∀ k ∈ ks, k.valid s.cfg) ∧ s.answeredBy (ks.flatMap (Tick.answers s.cfg)) :=
  ⟨atReady ([lateTick, lateTick].flatMap (Tick.answers cfgT2)), [lateTick, lateTick], canServe_atReady _, rfl, rfl,
    by intro k hk; simp at hk; subst hk; exact lateTick_valid, answeredBy_of_script (rest := []) (List.append_nil _).symm⟩

/-- No tick at all, and one tick short of the target. -/
theorem witness_StalledCalibrationGivesZeros :
    ∀ ks ∈ [[], [lateTick]], ∃ (s : State) (us : List Answer), canServe s ∧ s.oValid = false ∧
      ks.length < s.cfg.targetSamples ∧ (∀ k ∈ ks, k.valid s.cfg) ∧ us.length = s.cfg.stallLimit + 1 ∧
      (∀ a ∈ us, answerUnready a) ∧ s.answeredBy (ks.flatMap (Tick.answers s.cfg) ++ us) := by
  intro ks hks
  refine ⟨atReady (ks.flatMap (Tick.answers cfgT2) ++ List.replicate 4 .fail), List.replicate 4 .fail,
    canServe_atReady _, rfl, ?_, ?_, rfl, by simp [answerUnready],
    answeredBy_of_script (rest := []) (List.append_nil _).symm⟩
  · simp at hks
    rcases hks with rfl | rfl <;> decide
  · simp at hks
    rcases hks with rfl | rfl
    · simp
    · intro k hk; simp at hk; subst hk; exact lateTick_valid

/-- States of both kinds: ticks enough, and a stall before the first tick. -/
theorem witness_EveryCalibrationEndsOneWay :
    (∃ (s : State) (ks : List Tick), canServe s ∧ s.oValid = false ∧ ks.length = s.cfg.targetSamples ∧
      (∀ k ∈ ks, k.valid s.cfg) ∧ s.answeredBy (ks.flatMap (Tick.answers s.cfg))) ∧
    (∃ (s : State) (us : List Answer), canServe s ∧ s.oValid = false ∧ 0 < s.cfg.targetSamples ∧
      us.length = s.cfg.stallLimit + 1 ∧ (∀ a ∈ us, answerUnready a) ∧ s.answeredBy us) := by
  obtain ⟨s, us, hs, ho, hl, -, hu, ha, hb⟩ := witness_StalledCalibrationGivesZeros [] (by simp)
  exact ⟨witness_CalibrationIsTheMeanOfReadySamples, s, us, hs, ho, hl, hu, ha, by simpa using hb⟩

/-- A calibration that completes and one that stalls. -/
theorem witness_CalibrationPollBounds :
    (∃ s t : State, canServe s ∧ s.oValid = false ∧ exec .cal s = .next t ∧ t.cnt = s.cfg.targetSamples) ∧
    (∃ s t : State, canServe s ∧ s.oValid = false ∧ exec .cal s = .next t ∧ t.cnt < s.cfg.targetSamples) := by
  have key : ∀ answers, ∃ t, exec .cal (atReady answers) = .next t ∧
      (after (exec .cal (atReady answers))).map (fun u => u.cnt) = some t.cnt := by
    intro answers
    rcases calCommand_cases (atReady answers) with ⟨t, _, _, _, h⟩ | ⟨t, _, _, _, h⟩
    · exact ⟨calDone t, h, by rw [show exec .cal (atReady answers) = .next (calDone t) from h]; rfl⟩
    · exact ⟨calStalled t, h, by rw [show exec .cal (atReady answers) = .next (calStalled t) from h]; rfl⟩
  constructor
  · obtain ⟨t, ht, hc⟩ := key (tickCal2 ++ tickCal2)
    refine ⟨_, t, canServe_atReady _, rfl, ht, ?_⟩
    have h2 : (after (exec .cal (atReady (tickCal2 ++ tickCal2)))).map (fun u => u.cnt) = some 2 := by decide +kernel
    rw [h2] at hc
    exact (Option.some.inj hc).symm
  · obtain ⟨t, ht, hc⟩ := key (List.replicate 4 .fail)
    refine ⟨_, t, canServe_atReady _, rfl, ht, ?_⟩
    have h2 : (after (exec .cal (atReady (List.replicate 4 .fail)))).map (fun u => u.cnt) = some 0 := by decide +kernel
    rw [h2] at hc
    rw [← Option.some.inj hc]
    decide

theorem witness_CorrCorrectsAndEmits :
    ∃ s : State, s.dstate = .ready ∧ s.cancelPending = false ∧ s.sValid = true ∧ s.oValid = true :=
  ⟨sampled, rfl, rfl, rfl, rfl⟩

/-- An unready poll, and a ready one with any sample. -/
theorem witness_RunMakesItsFirstIteration :
    (∃ s : State, canServe s ∧ s.oValid = true ∧ answerUnready (s.answerAt 0)) ∧
    (∀ r : Axis → AxisRead, ∃ s : State, canServe s ∧ s.oValid = true ∧ ¬ answerUnready (s.answerAt 0) ∧
      s.answeredBy (s.answerAt 0 :: sampleAnswers s.cfg r)) :=
  ⟨⟨calibrated [.fail], canServe_calibrated _, rfl, trivial⟩,
    fun r => ⟨calibrated (.ok 0x02 :: sampleAnswers cfgT2 r), canServe_calibrated _, rfl,
      by simp [State.answerAt, calibrated, atReady, answerUnready],
      answeredBy_of_script (rest := []) (by simp [State.answerAt, calibrated, atReady, State.resetWith])⟩⟩

theorem witness_RunGoesOnIterating :
    (∃ s : State, s.running = true ∧ hostQuiet s ∧ s.cancelPending = false ∧ s.handleOpen = true ∧
      answerUnready (s.answerAt 0)) ∧
    (∀ r : Axis → AxisRead, ∃ s : State, s.running = true ∧ hostQuiet s ∧ s.cancelPending = false ∧
      s.handleOpen = true ∧ ¬ answerUnready (s.answerAt 0) ∧
      s.answeredBy (s.answerAt 0 :: sampleAnswers s.cfg r)) :=
  ⟨⟨live [.ok 0x00], rfl, .inl rfl, rfl, rfl, by simp [State.answerAt, live, calibrated, atReady, answerUnready]⟩,
    fun r => ⟨live (.ok 0x01 :: sampleAnswers cfgT2 r), rfl, .inl rfl, rfl, rfl,
      by simp [State.answerAt, live, calibrated, atReady, answerUnready],
      answeredBy_of_script (rest := []) (by simp [State.answerAt, live, calibrated, atReady, State.resetWith])⟩⟩

/-- A RUN that goes on and one that the cancellation ends. -/
theorem witness_RunEndsOnlyByCancellation :
    (∃ s t : State, s.running = true ∧ step s = .next t ∧ s.cancelPending = false) ∧
    (∃ s t : State, s.running = true ∧ step s = .next t ∧ s.cancelPending = true) :=
  ⟨⟨live [.ok 0x00], _, rfl, rfl, rfl⟩, ⟨{ live [] with cancelPending := true }, _, rfl, rfl, rfl⟩⟩

/-- A ready cycle and one that is not. -/
theorem witness_CycleEqualsIteration :
    (∃ s : State, canServe s ∧ s.oValid = true ∧
      (after (exec .poll s)).map (fun a => a.response) = some (some 0x80)) ∧
    (∃ s : State, canServe s ∧ s.oValid = true ∧
      (after (exec .poll s)).map (fun a => a.response) = some (some 0x00)) :=
  ⟨⟨calibrated (.ok 0x01 :: sampleRS2), canServe_calibrated _, rfl, by decide +kernel⟩,
    ⟨calibrated [.fail], canServe_calibrated _, rfl, by decide +kernel⟩⟩

/-- Both ends of the range (V-DEC-2, V-DEC-3). -/
theorem witness_Decode16IsABijection :
    decode16 0x00 0x80 = -32768 ∧ decode16 0xFF 0x7F = 32767 := by decide

/-- One step inside the threshold and exactly at it (V-COR-4, V-COR-5). -/
theorem witness_DeadzoneIsStrict :
    absNum ((99999 / 10000000 : NumQ) - 0) < 1 / 100 ∧ (1 / 100 : NumQ) ≤ absNum ((1 / 100 : NumQ) - 0) := by
  decide +kernel

/-- A positive threshold, and V-SRC-11's three values on an accelerometer axis with offset 0.0. -/
theorem witness_FilterLaws :
    (∃ th : NumQ, 0 < th) ∧ (∀ x ∈ ([1, 5 / 1000, -2 / 100] : List NumQ), ∃ (v o : Vec6) (i : Axis),
      i.index < 3 ∧ o.get i = 0 ∧ v.get i = x) :=
  ⟨⟨1 / 100, by decide +kernel⟩, fun x _ => ⟨{ Vec6.zero with az := x }, Vec6.zero, .az, by decide, rfl, rfl⟩⟩

theorem witness_StepKeepsInvariant : ∃ s t : State, Inv s ∧ step s = .next t :=
  ⟨atReady [], _, inv_atReady _, rfl⟩

theorem witness_StepKeepsOutputInvariant : ∃ s t : State, OutInv s ∧ step s = .next t :=
  ⟨atReady [], _, outInv_atReady _, rfl⟩

theorem witness_StepKeepsBusDiscipline : ∃ s t : State, Inv s ∧ BusInv s ∧ step s = .next t :=
  ⟨atReady [], _, inv_atReady _, busInv_atReady _, rfl⟩

/-- With no reset coming, and with one that is admitted. -/
theorem witness_StepNeverStops :
    (∃ s : State, Inv s ∧ ∀ c rest, s.script = .reset c :: rest → s.running = false ∧ c.isAdmitted = true) ∧
    (∃ (s : State) (c : Cfg) (rest : List HostMove), Inv s ∧ s.script = .reset c.toCfgFields :: rest ∧
      s.running = false ∧ c.isAdmitted = true) :=
  ⟨⟨atReady [], inv_atReady _, fun c rest h => by simp [atReady, State.resetWith] at h⟩,
    ⟨{ atReady [] with script := [.reset cfgT.toCfgFields] }, cfgT, [],
      let h := inv_atReady []
      ⟨h.between, h.handle, h.exit, h.failStep, h.live, h.noData, h.corrected, h.counters, h.fresh, h.initialised⟩,
      rfl, rfl, cfgT.ok⟩⟩

theorem witness_OffsetsAreWrittenOnce :
    ∃ s t : State, noReset s ∧ s.oValid = true ∧ step s = .next t :=
  ⟨calibrated [], _, noReset_of_script rfl, rfl, rfl⟩

theorem witness_ConfigurationIsNeverWritten :
    (∃ (s : State) (c : Cfg) (rest : List HostMove), s.script = .reset c.toCfgFields :: rest ∧ s.running = false) ∧
    (∃ s t : State, noReset s ∧ step s = .next t) :=
  ⟨⟨{ calibrated [] with script := [.reset cfgT.toCfgFields] }, cfgT, [], rfl, rfl⟩,
    ⟨calibrated [], _, noReset_of_script rfl, rfl⟩⟩

theorem witness_OutputOnlyGrows : ∃ s t : State, noReset s ∧ step s = .next t :=
  ⟨live [.ok 0x00], _, noReset_of_script rfl, rfl⟩

theorem witness_WritersOfEachRegister : ∃ s t : State, exec .corr s = .next t ∧ s.cancelPending = false :=
  ⟨sampled, _, rfl, rfl⟩

theorem witness_OnlyInitWritesTheBus : ∃ s t : State, Instr.poll ≠ .init ∧ exec .poll s = .next t :=
  ⟨atReady [.fail], _, by decide, rfl⟩

theorem witness_BusReadFailureIsNotFatal :
    ∃ s : State, s.dstate = .ready ∧ s.cancelPending = false ∧ s.handleOpen = true ∧ s.answerAt 0 = .fail :=
  ⟨atReady [.fail], rfl, rfl, rfl, rfl⟩

/-- Two states that differ in registers that hold no value. -/
theorem witness_UnwrittenRegistersAreNeverRead :
    ∃ s t : State, (s.running = true → s.oValid = true) ∧ s.visible = t.visible ∧ s.regO ≠ t.regO ∧
      s.cnt ≠ t.cnt :=
  ⟨atReady [], { atReady [] with regO := { Vec6.zero with az := 1 }, cnt := 1 }, by simp [atReady, State.resetWith],
    rfl, by decide +kernel, by decide⟩

end Sys2Proof.Tests
end

section
/-!
The scope (00_scope.md): the host's move and the block's turn (R10), the command at the port (R21), the configuration
admitted and supplied (R6, R8), and the reset input refused (R8, U5).
-/

namespace Sys2Proof.Machine

/-! ### The host's move, by the head of its script -/

theorem hostTurn_present {s : State} {w : Byte} {rest : List HostMove} (h : s.script = .present w :: rest) :
    hostTurn s = .next { s with script := rest, port := s.port ++ [w] } := by
  simp only [hostTurn, h, applyMove]

theorem hostTurn_cancel {s : State} {rest : List HostMove} (h : s.script = .cancel :: rest) :
    hostTurn s = .next { s with script := rest, cancelPending := true } := by
  simp only [hostTurn, h, applyMove]

theorem hostTurn_reset {s : State} {c : CfgFields} {rest : List HostMove} (h : s.script = .reset c :: rest) :
    hostTurn s = applyReset c { s with script := rest } := by
  simp only [hostTurn, h, applyMove]

/-- A refused move ends the step before the block's turn. -/
theorem step_of_hostTurn_refused {s : State} {r : Refusal} (h : hostTurn s = .refused r) : step s = .refused r := by
  simp [step, h]

/-! ### The command at the port -/

/-- An idle block takes the word from its port, clears the last response and executes the word's command (R21, R205). -/
theorem blockTurn_command {u : State} {w : Byte} {rest : List Byte} {i : Instr} (hr : u.running = false)
    (hp : u.port = w :: rest) (hd : decode w = .ok i) :
    blockTurn u = exec i { u with port := rest, response := none } := by
  simp [blockTurn, takeWord, hr, hp, hd]

/-- The same in a step in which the host does nothing. -/
theorem step_command {s : State} {w : Byte} {rest : List Byte} {i : Instr} (hr : s.running = false) (hq : hostQuiet s)
    (hp : s.port = w :: rest) (hd : decode w = .ok i) :
    step s = exec i { s with script := s.script.tail, port := rest, response := none } := by
  rw [step_of_hostTurn (hostTurn_quiet hq)]
  exact blockTurn_command hr hp hd

/-- A table row that gives a command gives it by the decoder, on the row's bits. -/
theorem decode_of_decodeTableWord {nbits w : Nat} {i : Instr} (h : decodeTableWord nbits w = some i) :
    decode (BitVec.ofNat 8 (w % 2 ^ nbits)) = .ok i := by
  cases hd : decode (BitVec.ofNat 8 (w % 2 ^ nbits)) with
  | error e => simp [decodeTableWord, hd] at h
  | ok j =>
    have hj : w % 2 ^ nbits < 256 ∧ j = i := by simpa [decodeTableWord, hd] using h
    rw [hj.2]

/-! ### Configurations -/

/-- The conditions of R8, and the bound of R6 and R248 on `T_SETTLE1`. -/
theorem isAdmitted_iff (c : CfgFields) : c.isAdmitted = true ↔
    c.accelBase.toNat + 5 ≤ 255 ∧ c.gyroBase.toNat + 5 ≤ 255 ∧ c.usedRegs.Nodup ∧ 1 ≤ c.targetSamples ∧
      0 ≤ c.threshold ∧ 100 ≤ c.tSettle1 := by
  simp only [CfgFields.isAdmitted, CfgFields.basesFit, CfgFields.regsDistinct, CfgFields.targetPositive,
    CfgFields.thresholdNonneg, CfgFields.settleLongEnough, Bool.and_eq_true, decide_eq_true_eq, and_assoc]

/-- A configuration that breaks a condition of R8 is not admitted. -/
theorem not_admitted_of_broken {c : CfgFields}
    (h : 255 < c.accelBase.toNat + 5 ∨ 255 < c.gyroBase.toNat + 5 ∨ ¬ c.usedRegs.Nodup ∨ c.targetSamples = 0 ∨
      c.threshold < 0) : ¬ c.isAdmitted = true := by
  rw [isAdmitted_iff]
  rintro ⟨hAccel, hGyro, hDistinct, hSamples, hThreshold, -⟩
  rcases h with h | h | h | h | h
  · omega
  · omega
  · exact h hDistinct
  · omega
  · exact absurd hThreshold (not_le_of_gt h)

/-! ### The reset input refused -/

/-- U5: the reset input during RUN. -/
theorem applyReset_running (c : CfgFields) {s : State} (h : s.running = true) :
    applyReset c s = .refused .resetDuringOperation := by
  simp [applyReset, h]

/-- R8: the reset input with a configuration that is not admitted. -/
theorem applyReset_not_admitted {c : CfgFields} {s : State} (hr : s.running = false) (hc : ¬ c.isAdmitted = true) :
    applyReset c s = .refused .configNotAdmitted := by
  simp [applyReset, hr, hc]

/-! ### The obligations -/

/-- Settles O13: the host's move is the reset, and its refusal is the step's. -/
theorem resetInputRefused : Obligations.ResetInputRefused := by
  refine ⟨fun s c rest hs hr hc => ?_, fun s c rest hs hr => ?_⟩
  · exact step_of_hostTurn_refused ((hostTurn_reset hs).trans (applyReset_not_admitted hr (not_admitted_of_broken hc)))
  · exact step_of_hostTurn_refused ((hostTurn_reset hs).trans (applyReset_running c hr))

/-- Settles O6: `withFetchWord` leaves the block idle, the host quiet and the word first at the port. -/
theorem placedWordIsExecuted : Obligations.PlacedWordIsExecuted := by
  intro s w i h
  exact step_command (s := s.withFetchWord 8 w) rfl (.inr ⟨s.script, rfl⟩) rfl (decode_of_decodeTableWord h)

/-- Settles O9, by the host's move of each kind. -/
theorem hostMovesComeFirst : Obligations.HostMovesComeFirst :=
  ⟨fun _ _ hs => step_of_hostTurn (hostTurn_cancel hs), fun _ _ _ hs => step_of_hostTurn (hostTurn_present hs)⟩

/-- Settles O11: R6's values stand in `Config.fields`; the bound on `T_SETTLE1` is part of admission (log entry 5). -/
theorem resetConfiguration : Obligations.ResetConfiguration := by
  obtain ⟨-, -, -, -, -, hSettle⟩ := (isAdmitted_iff _).1 Config.cfg.ok
  exact ⟨Config.cfg, rfl, rfl, rfl, rfl, rfl, rfl, hSettle, rfl⟩

end Sys2Proof.Machine
end

section
/-!
What one step can do, said once: the host's move, and the turn of the block with the command it executes (R9, R10,
R184, R205).
-/

namespace Sys2Proof.Machine

/-! ### The host's move -/

/-- A host's move that answers touches only the script, the port and the cancel latch, or is a reset. -/
theorem hostTurn_next {s u : State} (h : hostTurn s = .next u) :
    (∃ script port cancel, u = { s with script := script, port := port, cancelPending := cancel }) ∨
    (∃ rest c, s.script = .reset c.toCfgFields :: rest ∧
      u = { State.resetWith c with script := rest, answers := s.answers, draws := s.draws }) := by
  rcases hostTurn_cases h with
    ⟨-, rfl⟩ | ⟨rest, -, rfl⟩ | ⟨rest, w, -, rfl⟩ | ⟨rest, -, rfl⟩ | ⟨rest, c, hs, -, rfl⟩
  · exact .inl ⟨_, _, _, rfl⟩
  · exact .inl ⟨_, _, _, rfl⟩
  · exact .inl ⟨_, _, _, rfl⟩
  · exact .inl ⟨_, _, _, rfl⟩
  · exact .inr ⟨rest, c, hs, rfl⟩

theorem hostTurn_noReset {s u : State} (hn : noReset s) (h : hostTurn s = .next u) :
    ∃ script port cancel, u = { s with script := script, port := port, cancelPending := cancel } := by
  rcases hostTurn_next h with hm | ⟨rest, c, hs, -⟩
  · exact hm
  · exact absurd hs (hn _ _)

/-- The reset input with an admitted configuration and no operation running (R240). -/
theorem applyReset_admitted (c : Cfg) {s : State} (h : s.running = false) : applyReset c.toCfgFields s =
    .next { State.resetWith c with script := s.script, answers := s.answers, draws := s.draws } := by
  simp [applyReset, h, c.ok]

/-! ### A command -/

/-- What executing a command can do when it answers: the acceptance of R205, then the command's own body. -/
inductive Executes : Instr → State → State → Prop
  | refused {i s} (why : s.terminal = true ∨ admits i s = false) : Executes i s (s.respond false .refused)
  | cancelled {i s} (live : s.terminal = false) (pending : s.cancelPending = true) : Executes i s (takeCancel s)
  | init {s} (fresh : s.dstate = .uninitialized) : Executes .init s (initSequence s)
  | poll {s} (ready : s.dstate = .ready) (opened : s.handleOpen = true) : Executes .poll s (pollCommand s)
  | read {s} (ready : s.dstate = .ready) (opened : s.handleOpen = true) : Executes .read s (readCommand s)
  | cal {s t} (ready : s.dstate = .ready) (noOffsets : s.oValid = false) (ends : calCommand s = .next t)
      (opened : s.handleOpen = true) : Executes .cal s t
  | corr {s} (ready : s.dstate = .ready) (sample : s.sValid = true) (offsets : s.oValid = true) :
      Executes .corr s (corrCommand s)
  | run {s} (ready : s.dstate = .ready) (offsets : s.oValid = true) (opened : s.handleOpen = true) :
      Executes .run s (iterate { s with running := true })

theorem executes_of_exec {i : Instr} {s t : State} (h : exec i s = .next t) : Executes i s t := by
  rcases exec_cases i s with ⟨he, hw⟩ | ⟨hl, hc, he⟩ | ⟨-, hc, ha, he⟩ <;> rw [he] at h
  · cases h; exact .refused hw
  · cases h; exact .cancelled hl hc
  · have ht := (admits_iff i s).1 ha
    rcases performed_cases h hc with
      ⟨rfl, rfl⟩ | ⟨rfl, ho, rfl⟩ | ⟨rfl, ho, rfl⟩ | ⟨rfl, ho, hcal⟩ | ⟨rfl, rfl⟩ | ⟨rfl, ho, rfl⟩
    · exact .init ht
    · exact .poll ht ho
    · exact .read ht ho
    · exact .cal ht.1 ht.2 hcal ho
    · exact .corr ht.1 ht.2.1 ht.2.2
    · exact .run ht.1 ht.2 ho

/-! ### The block's turn -/

theorem blockTurn_running {u : State} (hr : u.running = true) : blockTurn u = runIteration u := by
  simp [blockTurn, hr]

theorem blockTurn_idle {u : State} (hr : u.running = false) (hp : u.port = []) : blockTurn u = .next u := by
  simp [blockTurn, takeWord, hr, hp]

theorem blockTurn_illegal {u : State} {w : Byte} {rest : List Byte} {e : DecodeError} (hr : u.running = false)
    (hp : u.port = w :: rest) (hd : decode w = .error e) :
    blockTurn u = .next (respondIllegal { u with port := rest, response := none }) := by
  simp [blockTurn, takeWord, hr, hp, hd]

/-- What the block's turn can do when it answers. -/
inductive Turn (u : State) : State → Prop
  | cancelled (running : u.running = true) (pending : u.cancelPending = true) : Turn u (takeCancel u)
  | iterated (running : u.running = true) (opened : u.handleOpen = true) : Turn u (iterate u)
  | idle (idle : u.running = false) (empty : u.port = []) : Turn u u
  | illegal {rest} (idle : u.running = false) : Turn u (respondIllegal { u with port := rest, response := none })
  | executed {i rest t} (idle : u.running = false)
      (does : Executes i { u with port := rest, response := none } t) : Turn u t

theorem turn_of_blockTurn {u t : State} (h : blockTurn u = .next t) : Turn u t := by
  rcases blockTurn_cases u with
    ⟨hr, he⟩ | ⟨hr, hp, he⟩ | ⟨w, rest, e, hr, -, -, he⟩ | ⟨w, rest, i, hr, -, -, he⟩ <;> rw [he] at h
  · rcases runIteration_cases u with ⟨hc, hi⟩ | ⟨-, -, hi⟩ | ⟨-, ho, hi⟩ <;> rw [hi] at h <;> cases h
    · exact .cancelled hr hc
    · exact .iterated hr ho
  · cases h; exact .idle hr hp
  · cases h; exact .illegal hr
  · exact .executed hr (executes_of_exec h)

/-- A step that answers: the host's move, then a turn of the block. -/
theorem step_turn {s t : State} (h : step s = .next t) : ∃ u, hostTurn s = .next u ∧ Turn u t := by
  obtain ⟨u, hu, ht⟩ := step_next h
  exact ⟨u, hu, turn_of_blockTurn ht⟩

/-! ### CAL's body as one update of the state -/

/-- CAL's body with its frame written out: reads on the bus, and the registers R39 lists (R160). -/
theorem calCommand_next {s t : State} (h : calCommand s = .next t) :
    ∃ (evs : List Event) (ready valid : Bool) (sample sum offsets : Vec6) (n k : Nat),
      (∀ e ∈ evs, isStatusRead s.cfg e ∨ isSampleRead s.cfg e) ∧
      n ≤ s.cfg.targetSamples ∧ k ≤ s.cfg.stallLimit + 1 ∧
      t = { s.afterReads evs with
        rdy := ready, regS := sample, sValid := valid, regSUM := sum, cnt := n, stall := k
        regO := offsets, oValid := true, response := some (respWord false .ok) } := by
  obtain ⟨u, ⟨evs, hevs, hu⟩, hn, hk, o, rfl⟩ := calCommand_frame h
  refine ⟨evs, u.rdy, u.sValid, u.regS, u.regSUM, o, u.cnt, u.stall, hevs, hn, hk, ?_⟩
  rw [hu]

end Sys2Proof.Machine
end

section
/-!
Who writes what (R24, R31, R34, R37, R39): what a session that goes on keeps, the writers of each register, and what
only reset may change.
-/

namespace Sys2Proof.Machine

/-! ### A session that goes on -/

/-- The session goes on from `s` to `t`: driver state, handle, status registers, latch and configuration are kept, and
what was recorded is only extended. -/
structure GoesOn (s t : State) : Prop where
  dstate : t.dstate = s.dstate
  handleOpen : t.handleOpen = s.handleOpen
  exitStatus : t.exitStatus = s.exitStatus
  failStep : t.failStep = s.failStep
  cancelPending : t.cancelPending = s.cancelPending
  cfg : t.cfg = s.cfg
  port : t.port = s.port
  script : t.script = s.script
  out : s.out <+: t.out
  trace : s.trace <+: t.trace

theorem goesOn_respond (s : State) (r : Bool) (c : RespCode) : GoesOn s (s.respond r c) := by
  constructor <;> simp

theorem goesOn_pollCommand (s : State) : GoesOn s (pollCommand s) := by
  rw [pollCommand_eq]; constructor <;> simp

theorem goesOn_readCommand (s : State) : GoesOn s (readCommand s) := by
  obtain ⟨r, -, h⟩ := readCommand_cases s
  rw [h]; constructor <;> simp

theorem goesOn_calCommand {s t : State} (h : calCommand s = .next t) : GoesOn s t := by
  obtain ⟨evs, ready, valid, sample, sum, offsets, n, k, -, -, -, rfl⟩ := calCommand_next h
  constructor <;> simp

theorem goesOn_corrCommand (s : State) : GoesOn s (corrCommand s) := by
  rw [corrCommand_eq]; constructor <;> simp

theorem goesOn_iterate (s : State) : GoesOn s (iterate s) := by
  rcases iterate_cases s with h | ⟨r, h⟩ <;> rw [h] <;> constructor <;> simp

/-- `Iterate()` writes neither the offsets nor CAL's working registers (R39, R185). -/
theorem iterate_keeps_calibration (s : State) :
    (iterate s).regO = s.regO ∧ (iterate s).oValid = s.oValid ∧ (iterate s).regSUM = s.regSUM ∧
      (iterate s).cnt = s.cnt ∧ (iterate s).stall = s.stall := by
  rcases iterate_cases s with h | ⟨r, h⟩ <;> rw [h] <;> simp

theorem iterate_keeps_running (s : State) :
    (iterate s).running = s.running ∧ (iterate s).response = s.response := by
  rcases iterate_cases s with h | ⟨r, h⟩ <;> rw [h] <;> simp

/-- Every admitted command but INIT leaves the session going on. -/
theorem Executes.goesOn {i : Instr} {s t : State} (h : Executes i s t) (hi : i ≠ .init)
    (hc : s.cancelPending = false) : GoesOn s t := by
  cases h with
  | refused why => exact goesOn_respond s _ _
  | cancelled live pending => rw [hc] at pending; cases pending
  | init fresh => exact absurd rfl hi
  | poll ready opened => exact goesOn_pollCommand s
  | read ready opened => exact goesOn_readCommand s
  | cal ready noOffsets ends opened => exact goesOn_calCommand ends
  | corr ready sample offsets => exact goesOn_corrCommand s
  | run ready offsets opened =>
    obtain ⟨h1, h2, h3, h4, h5, h6, h7, h8, h9, h10⟩ := goesOn_iterate { s with running := true }
    exact ⟨h1, h2, h3, h4, h5, h6, h7, h8, h9, h10⟩

/-! ### The writers of each register -/

/-- Settles O45: the summary table of R39, command by command. -/
theorem writersOfEachRegister : Obligations.WritersOfEachRegister := by
  intro i s t h
  cases executes_of_exec h with
  | refused why => simp
  | cancelled live pending => rw [takeCancel_eq]; simp [pending]
  | init fresh => rcases initSequence_cases s with he | ⟨k, -, he⟩ <;> rw [he] <;> simp
  | poll ready opened => rw [pollCommand_eq]; simp
  | read ready opened =>
    obtain ⟨r, -, he⟩ := readCommand_cases s
    rw [he]; simp
  | cal ready noOffsets ends opened =>
    obtain ⟨evs, rdy, valid, sample, sum, offsets, n, k, -, -, -, rfl⟩ := calCommand_next ends
    simp
  | corr ready sample offsets => rw [corrCommand_eq]; simp
  | run ready offsets opened => rcases iterate_cases { s with running := true } with he | ⟨r, he⟩ <;> rw [he] <;> simp

/-! ### What only reset may change -/

/-- `t` comes after `s` in the same session: the configuration is kept (R31), records and events are only appended
(R34, R37), and valid offsets stay (R24). -/
structure Later (s t : State) : Prop where
  cfg : t.cfg = s.cfg
  out : s.out <+: t.out
  trace : s.trace <+: t.trace
  offsets : s.oValid = true → t.regO = s.regO ∧ t.oValid = true

theorem later_refl (s : State) : Later s s := ⟨rfl, List.prefix_rfl, List.prefix_rfl, fun h => ⟨rfl, h⟩⟩

theorem GoesOn.later {s t : State} (h : GoesOn s t) (ho : s.oValid = true → t.regO = s.regO ∧ t.oValid = true) :
    Later s t := ⟨h.cfg, h.out, h.trace, ho⟩

theorem later_takeCancel (s : State) : Later s (takeCancel s) := by
  rw [takeCancel_eq]
  refine ⟨rfl, List.prefix_rfl, ?_, fun h => ⟨rfl, h⟩⟩
  cases s.handleOpen <;> simp

theorem later_initSequence (s : State) : Later s (initSequence s) := by
  rcases initSequence_cases s with he | ⟨k, -, he⟩ <;> rw [he] <;>
    exact ⟨rfl, List.prefix_rfl, List.prefix_append _ _, fun h => ⟨rfl, h⟩⟩

theorem later_iterate (s : State) : Later s (iterate s) := by
  obtain ⟨hO, hv, -⟩ := iterate_keeps_calibration s
  exact (goesOn_iterate s).later fun h => ⟨hO, hv.trans h⟩

/-- Executing any command comes later: CAL, the one writer of the offsets, is not admitted once they are valid. -/
theorem Executes.later {i : Instr} {s t : State} (h : Executes i s t) : Later s t := by
  cases h with
  | refused why => exact (goesOn_respond s _ _).later fun h => ⟨rfl, h⟩
  | cancelled live pending => exact later_takeCancel s
  | init fresh => exact later_initSequence s
  | poll ready opened => exact (goesOn_pollCommand s).later fun h => by rw [pollCommand_eq]; exact ⟨rfl, h⟩
  | read ready opened =>
    obtain ⟨r, -, he⟩ := readCommand_cases s
    exact (goesOn_readCommand s).later fun h => by rw [he]; exact ⟨rfl, h⟩
  | cal ready noOffsets ends opened => exact (goesOn_calCommand ends).later fun h => by rw [noOffsets] at h; cases h
  | corr ready sample offsets => exact (goesOn_corrCommand s).later fun h => ⟨rfl, h⟩
  | run ready offsets opened =>
    obtain ⟨hc, ho, ht, hO⟩ := later_iterate { s with running := true }
    exact ⟨hc, ho, ht, hO⟩

theorem Turn.later {u t : State} (h : Turn u t) : Later u t := by
  cases h with
  | cancelled running pending => exact later_takeCancel u
  | iterated running opened => exact later_iterate u
  | idle idle empty => exact later_refl u
  | illegal idle => exact ⟨rfl, List.prefix_rfl, List.prefix_rfl, fun h => ⟨rfl, h⟩⟩
  | executed idle does =>
    obtain ⟨hc, ho, ht, hO⟩ := does.later
    exact ⟨hc, ho, ht, hO⟩

/-- A step without reset comes later. -/
theorem step_later {s t : State} (hn : noReset s) (h : step s = .next t) : Later s t := by
  obtain ⟨u, hu, ht⟩ := step_turn h
  obtain ⟨script, port, cancel, rfl⟩ := hostTurn_noReset hn hu
  obtain ⟨hc, ho, htr, hO⟩ := ht.later
  exact ⟨hc, ho, htr, hO⟩

/-- Settles O42: a step without reset comes later. -/
theorem offsetsAreWrittenOnce : Obligations.OffsetsAreWrittenOnce :=
  fun _ _ hn ho h => (step_later hn h).offsets ho

/-- Settles O44: a step without reset comes later. -/
theorem outputOnlyGrows : Obligations.OutputOnlyGrows :=
  fun _ _ hn h => ⟨(step_later hn h).out, (step_later hn h).trace⟩

end Sys2Proof.Machine
end

section
/-!
Reset (R38, R240), the configuration it takes (R31), and what the host may read (R25, R26, R32).
-/

namespace Sys2Proof.Machine

/-- Settles O12: the host's move is the reset, after which the block has no word to take. -/
theorem resetInputResets : Obligations.ResetInputResets := by
  intro s c rest hs hr
  exact (step_of_hostTurn ((hostTurn_reset hs).trans (applyReset_admitted c hr))).trans (blockTurn_idle rfl rfl)

/-- Settles O43: the reset input supplies the configuration, and any other step comes later. -/
theorem configurationIsNeverWritten : Obligations.ConfigurationIsNeverWritten :=
  ⟨State.resetWith_cfg, fun s c rest hs hr => ⟨_, resetInputResets s c rest hs hr, rfl⟩,
    fun _ _ hn h => (step_later hn h).cfg⟩

/-- Settles O10: each field of the reset state, and the host's reads with the flags 0. -/
theorem resetState : Obligations.ResetState := by
  intro c
  exact ⟨rfl, rfl, rfl, rfl, rfl, rfl, rfl, rfl, rfl, rfl, rfl, rfl, rfl, rfl, rfl, rfl⟩

/-- Settles O50: each read by its flag or by the driver state. -/
theorem hostReadsOnlyValidRegisters : Obligations.HostReadsOnlyValidRegisters := by
  intro s
  refine ⟨?_, ?_, ?_, ?_, ?_, ?_, ?_, ?_⟩
  · simp [hostReadS]
  · simp [hostReadO]
  · simp [hostReadC]
  · exact fun h => by simp [hostReadS, h]
  · exact fun h => by simp [hostReadO, h]
  · exact fun h => by simp [hostReadC, h]
  · rw [← terminal_iff]; simp [hostReadExit]
  · simp [hostReadFailStep]

end Sys2Proof.Machine
end

section
/-!
The block's invariant (R20, R29, R32, R130, R184, R203, R205, R211): reset meets it, and every step keeps it.
-/

namespace Sys2Proof.Machine

/-- A reset state meets the invariant, whatever the environment holds. -/
theorem inv_reset (c : Cfg) (script : List HostMove) (answers : List Answer) (draws : Nat) :
    Inv { State.resetWith c with script := script, answers := answers, draws := draws } where
  between := by simp [State.resetWith]
  handle := by simp [State.resetWith]
  exit := rfl
  failStep := rfl
  live := by simp [State.resetWith]
  noData := fun _ => ⟨rfl, rfl, rfl⟩
  corrected := by simp [State.resetWith]
  counters := by simp [State.resetWith]
  fresh := fun _ => rfl
  initialised := by simp [State.resetWith]

section
variable {s t : State} (h : Inv s)
include h

/-- The host's moves but reset do not touch what the invariant speaks of. -/
theorem Inv.hostMove (script : List HostMove) (port : List Byte) (cancel : Bool) :
    Inv { s with script := script, port := port, cancelPending := cancel } :=
  ⟨h.between, h.handle, h.exit, h.failStep, h.live, h.noData, h.corrected, h.counters, h.fresh, h.initialised⟩

/-- An idle block may take a word and clear or set its response. -/
theorem Inv.idle_response (hr : s.running = false) (port : List Byte) (response : Option Byte) :
    Inv { s with port := port, response := response } :=
  ⟨h.between, h.handle, h.exit, h.failStep, fun hrun => by simp [hr] at hrun, h.noData, h.corrected, h.counters,
    h.fresh, h.initialised⟩

/-- A session that goes on in `READY` keeps the invariant if the registers written stay within it. -/
theorem Inv.goesOn_ready (ready : s.dstate = .ready) (k : GoesOn s t)
    (live : t.running = true → t.oValid = true ∧ t.response = none)
    (corrected : t.cValid = true → t.sValid = true ∧ t.oValid = true)
    (counters : t.cnt ≤ s.cfg.targetSamples ∧ t.stall ≤ s.cfg.stallLimit + 1) : Inv t where
  between := by simp [k.dstate, ready]
  handle := by rw [k.handleOpen, k.dstate]; exact h.handle
  exit := by rw [k.exitStatus, k.dstate]; exact h.exit
  failStep := by rw [k.failStep, k.dstate]; exact h.failStep
  live := fun hr => ⟨k.dstate.trans ready, live hr⟩
  noData := by simp [k.dstate, ready]
  corrected := corrected
  counters := by rw [k.cfg]; exact counters
  fresh := by simp [k.dstate, ready]
  initialised := fun _ => by rw [k.cfg]; exact (h.initialised ready).trans k.trace

/-- Taking the cancellation from a state that is not terminal (R211). -/
theorem Inv.takeCancel (hl : s.terminal = false) : Inv (takeCancel s) := by
  have hf : s.dstate ≠ .failed := fun hf => by simp [State.terminal, hf] at hl
  rw [takeCancel_eq]
  exact {
    between := by simp
    handle := by simp
    exit := rfl
    failStep := by simpa [hf] using h.failStep
    live := by simp
    noData := by simp
    corrected := h.corrected
    counters := h.counters
    fresh := by simp
    initialised := by simp }

/-- INIT from `UNINITIALIZED`: `READY` with its whole sequence traced, or `FAILED` with the failing step (R130,
R203). -/
theorem Inv.initSequence (hu : s.dstate = .uninitialized) (hr : s.running = false) : Inv (initSequence s) := by
  have hdata := h.noData (.inl hu)
  rcases initSequence_cases s with he | ⟨k, hk, he⟩ <;> rw [he]
  · exact {
      between := by simp
      handle := by simp
      exit := by simpa [hu] using h.exit
      failStep := by simpa [hu] using h.failStep
      live := by simp [hr]
      noData := by simp
      corrected := h.corrected
      counters := h.counters
      fresh := by simp
      initialised := fun _ => by simp [h.fresh hu] }
  · exact {
      between := by simp
      handle := by simp
      exit := rfl
      failStep := by simp; omega
      live := by simp [hr]
      noData := fun _ => hdata
      corrected := h.corrected
      counters := h.counters
      fresh := by simp
      initialised := by simp }

/-- One iteration of RUN (R185), from a state in which the offsets are valid and no response stands. -/
theorem Inv.iterate (ready : s.dstate = .ready) (hO : s.oValid = true) (hresp : s.response = none) :
    Inv (iterate s) := by
  refine h.goesOn_ready ready (goesOn_iterate s) ?_ ?_ ?_
  · obtain ⟨-, hv, -⟩ := iterate_keeps_calibration s
    exact fun _ => ⟨hv.trans hO, (iterate_keeps_running s).2.trans hresp⟩
  · rcases iterate_cases s with he | ⟨r, he⟩ <;> rw [he]
    · exact h.corrected
    · exact fun _ => ⟨rfl, hO⟩
  · obtain ⟨-, -, -, hn, hk⟩ := iterate_keeps_calibration s
    rw [hn, hk]; exact h.counters

/-- Every command keeps the invariant, accepted with the last response cleared. -/
theorem Inv.executes {i : Instr} (hr : s.running = false) (hresp : s.response = none) (e : Executes i s t) : Inv t := by
  have idle : ∀ {p : Prop}, s.running = true → p := fun h1 => by simp [hr] at h1
  cases e with
  | refused why => exact h.idle_response hr _ _
  | cancelled live pending => exact h.takeCancel live
  | init fresh => exact h.initSequence fresh hr
  | poll ready opened =>
    refine h.goesOn_ready ready (goesOn_pollCommand s) ?_ ?_ ?_ <;> rw [pollCommand_eq]
    · exact idle
    · exact h.corrected
    · exact h.counters
  | read ready opened =>
    obtain ⟨r, -, he⟩ := readCommand_cases s
    refine h.goesOn_ready ready (goesOn_readCommand s) ?_ ?_ ?_ <;> rw [he]
    · exact idle
    · exact fun hc => ⟨rfl, (h.corrected hc).2⟩
    · exact h.counters
  | cal ready noOffsets ends opened =>
    have hC : s.cValid = true → False := fun hc => by simpa [noOffsets] using (h.corrected hc).2
    have hg := goesOn_calCommand ends
    obtain ⟨evs, rdy, valid, sample, sum, offsets, n, k, -, hn, hk, rfl⟩ := calCommand_next ends
    exact h.goesOn_ready ready hg idle (fun hc => (hC hc).elim) ⟨hn, hk⟩
  | corr ready sample offsets =>
    exact h.goesOn_ready ready (goesOn_corrCommand s) idle (fun _ => ⟨sample, offsets⟩) h.counters
  | run ready offsets opened =>
    have hrun : Inv { s with running := true } :=
      ⟨h.between, h.handle, h.exit, h.failStep, fun _ => ⟨ready, offsets, hresp⟩, h.noData, h.corrected,
        h.counters, h.fresh, h.initialised⟩
    exact hrun.iterate ready offsets hresp

theorem Inv.turn (e : Turn s t) : Inv t := by
  cases e with
  | cancelled running pending => exact h.takeCancel (terminal_of_ready (h.live running).1)
  | iterated running opened =>
    obtain ⟨ready, offsets, hresp⟩ := h.live running
    exact h.iterate ready offsets hresp
  | idle idle empty => exact h
  | illegal idle => exact h.idle_response idle _ _
  | executed idle does => exact (h.idle_response idle _ none).executes idle rfl does

end

/-- Settles O38: the host's move keeps the invariant or resets into it, and every turn of the block keeps it. -/
theorem stepKeepsInvariant : Obligations.StepKeepsInvariant := by
  intro s t h hst
  obtain ⟨u, hu, ht⟩ := step_turn hst
  have hInv : Inv u := by
    rcases hostTurn_next hu with ⟨script, port, cancel, rfl⟩ | ⟨rest, c, -, rfl⟩
    · exact h.hostMove script port cancel
    · exact inv_reset c rest s.answers s.draws
  exact hInv.turn ht

end Sys2Proof.Machine
end

section
/-!
The output's invariant (R25, R34, R37, R92, R181): reset meets it, and every step keeps it.
-/

namespace Sys2Proof.Machine

/-! ### What a stretch of events emits -/

@[simp] theorem emitted_append (a b : List Event) : emitted (a ++ b) = emitted a ++ emitted b := by
  simp [emitted]

@[simp] theorem emitted_emit (v : Vec6) : emitted [.emit v] = [v] := rfl

/-- Bus reads emit nothing. -/
theorem emitted_reads {c : Cfg} {evs : List Event} (h : ∀ e ∈ evs, isStatusRead c e ∨ isSampleRead c e) :
    emitted evs = [] := by
  refine List.filterMap_eq_nil_iff.2 fun e he => ?_
  rcases h e he with ⟨a, rfl⟩ | ⟨i, a, rfl | rfl⟩ <;> rfl

theorem emitted_sampleEvents (c : Cfg) (r : Axis → AxisRead) : emitted (sampleEvents c r) = [] :=
  emitted_reads fun e he => .inr (sampleEvents_sampleRead c r e he)

theorem emitted_initTrace (c : Cfg) : emitted (initTrace c) = [] := rfl

theorem emitted_initFailTrace (c : Cfg) {k : Nat} (hk : k < 5) : emitted (initFailTrace c k) = [] := by
  interval_cases k <;> rfl

/-! ### The invariant along a step -/

theorem outInv_reset (c : Cfg) (script : List HostMove) (answers : List Answer) (draws : Nat) :
    OutInv { State.resetWith c with script := script, answers := answers, draws := draws } where
  traced := rfl
  valid := by simp [State.resetWith]
  latest := by simp [State.resetWith]
  filtered := by simp [State.resetWith]

section
variable {s t : State} (h : OutInv s)
include h

/-- Events that emit nothing, with OUT and `C` left alone. -/
theorem OutInv.silent {evs : List Event} (he : emitted evs = []) (trace : t.trace = s.trace ++ evs)
    (out : t.out = s.out) (cValid : t.cValid = s.cValid) (regC : t.regC = s.regC) (cfg : t.cfg = s.cfg) : OutInv t where
  traced := by rw [out, trace, emitted_append, he, List.append_nil, h.traced]
  valid := by rw [out, cValid]; exact h.valid
  latest := by rw [out, cValid, regC]; exact h.latest
  filtered := by rw [out, cfg]; exact h.filtered

/-- A record outside the deadzone, written to `C` and emitted after events that emit nothing. -/
theorem OutInv.emits {evs : List Event} {v : Vec6} (he : emitted evs = [])
    (trace : t.trace = s.trace ++ evs ++ [.emit v]) (out : t.out = s.out ++ [v]) (cValid : t.cValid = true)
    (regC : t.regC = v) (cfg : t.cfg = s.cfg) (hv : outsideDeadzone s.cfg.threshold v) : OutInv t where
  traced := by simp [out, trace, he, h.traced]
  valid := by simp [out, cValid]
  latest := by simp [out, regC]
  filtered := by
    intro w hw
    rw [cfg]
    rw [out] at hw
    rcases List.mem_append.1 hw with hw | hw
    · exact h.filtered w hw
    · rw [List.mem_singleton.1 hw]; exact hv

theorem OutInv.takeCancel : OutInv (takeCancel s) := by
  rw [takeCancel_eq]
  cases s.handleOpen
  · exact h.silent (evs := []) rfl (List.append_nil _).symm rfl rfl rfl rfl
  · exact h.silent (evs := [.close]) rfl rfl rfl rfl rfl rfl

theorem OutInv.initSequence : OutInv (initSequence s) := by
  rcases initSequence_cases s with he | ⟨k, hk, he⟩ <;> rw [he]
  · exact h.silent (emitted_initTrace s.cfg) rfl rfl rfl rfl rfl
  · refine h.silent ?_ rfl rfl rfl rfl rfl
    rw [emitted_append, emitted_initFailTrace _ hk]
    split <;> rfl

theorem OutInv.iterate : OutInv (iterate s) := by
  rcases iterate_cases s with he | ⟨r, he⟩ <;> rw [he]
  · exact h.silent (evs := [_, _]) rfl rfl rfl rfl rfl rfl
  · refine h.emits (evs := _ :: sampleEvents s.cfg r) ?_ rfl rfl rfl rfl rfl (correct_outside _ _ _)
    exact emitted_sampleEvents s.cfg r

/-- Every command keeps the output's invariant. -/
theorem OutInv.executes {i : Instr} (e : Executes i s t) : OutInv t := by
  cases e with
  | refused why => exact h.silent (evs := []) rfl (List.append_nil _).symm rfl rfl rfl rfl
  | cancelled live pending => exact h.takeCancel
  | init fresh => exact h.initSequence
  | poll ready opened =>
    rw [pollCommand_eq]
    exact h.silent (evs := [_]) rfl rfl rfl rfl rfl rfl
  | read ready opened =>
    obtain ⟨r, -, he⟩ := readCommand_cases s
    rw [he]
    exact h.silent (emitted_sampleEvents s.cfg r) rfl rfl rfl rfl rfl
  | cal ready noOffsets ends opened =>
    obtain ⟨evs, rdy, valid, sample, sum, offsets, n, k, hevs, -, -, rfl⟩ := calCommand_next ends
    exact h.silent (emitted_reads hevs) rfl rfl rfl rfl rfl
  | corr ready sample offsets =>
    rw [corrCommand_eq]
    exact h.emits (evs := []) rfl (by simp) rfl rfl rfl rfl (correct_outside _ _ _)
  | run ready offsets opened =>
    have hrun : OutInv { s with running := true } := ⟨h.traced, h.valid, h.latest, h.filtered⟩
    exact hrun.iterate

theorem OutInv.turn (e : Turn s t) : OutInv t := by
  cases e with
  | cancelled running pending => exact h.takeCancel
  | iterated running opened => exact h.iterate
  | idle idle empty => exact h
  | illegal idle => exact ⟨h.traced, h.valid, h.latest, h.filtered⟩
  | @executed i rest t idle does =>
    have taken : OutInv { s with port := rest, response := none } := ⟨h.traced, h.valid, h.latest, h.filtered⟩
    exact taken.executes does

end

/-- Settles O39: the host's move keeps the invariant or resets into it, and every turn of the block keeps it. -/
theorem stepKeepsOutputInvariant : Obligations.StepKeepsOutputInvariant := by
  intro s t h hst
  obtain ⟨u, hu, ht⟩ := step_turn hst
  have hOut : OutInv u := by
    rcases hostTurn_next hu with ⟨script, port, cancel, rfl⟩ | ⟨rest, c, -, rfl⟩
    · exact ⟨h.traced, h.valid, h.latest, h.filtered⟩
    · exact outInv_reset c rest s.answers s.draws
  exact hOut.turn ht

/-! ### At reset -/

theorem busInv_reset (c : Cfg) : BusInv (State.resetWith c) where
  allowed := by simp [State.resetWith]
  phase := ⟨.unopened, rfl, by simp [State.resetWith]⟩

/-- Settles O37: the reset state of any configuration, and so of the environment's. -/
theorem invariantsAtReset : Obligations.InvariantsAtReset := by
  have h : ∀ c : Cfg, Inv (State.resetWith c) ∧ OutInv (State.resetWith c) ∧ BusInv (State.resetWith c) :=
    fun c => ⟨inv_reset c [] [] 0, outInv_reset c [] [] 0, busInv_reset c⟩
  exact ⟨h, h Config.cfg⟩

end Sys2Proof.Machine
end

section
/-!
What no operation reads (R26, R28, R30): two states that agree but for hidden registers step to states that agree but
for those. One simulation serves two kinds of hidden registers: the stored `rdy`, and the registers that hold no value
together with what a calibration left.
-/

namespace Sys2Proof.Machine

/-! ### States that agree but for hidden registers -/

/-- The registers two states may differ in. -/
structure Stored where
  rdy : Bool
  regS : Vec6
  regO : Vec6
  regC : Vec6
  regSUM : Vec6
  cnt : Nat
  stall : Nat

def State.stored (s : State) : Stored :=
  { rdy := s.rdy, regS := s.regS, regO := s.regO, regC := s.regC, regSUM := s.regSUM, cnt := s.cnt, stall := s.stall }

/-- The state with these registers replaced. -/
def State.withStored (s : State) (d : Stored) : State :=
  { s with
    rdy := d.rdy, regS := d.regS, regO := d.regO, regC := d.regC, regSUM := d.regSUM, cnt := d.cnt, stall := d.stall }

/-- What is hidden: `rdy`; `S`, `O` and `C` while not valid; `SUM`, `CNT` and `STALL`. -/
structure Hidden where
  rdy : Bool
  invalid : Bool
  work : Bool

/-- `t` is `s` but for what is hidden. -/
structure Agree (h : Hidden) (s t : State) : Prop where
  same : t = s.withStored t.stored
  rdy : h.rdy = false → t.rdy = s.rdy
  regS : h.invalid = false ∨ s.sValid = true → t.regS = s.regS
  regO : h.invalid = false ∨ s.oValid = true → t.regO = s.regO
  regC : h.invalid = false ∨ s.cValid = true → t.regC = s.regC
  work : h.work = false → t.regSUM = s.regSUM ∧ t.cnt = s.cnt ∧ t.stall = s.stall

/-- Two outcomes that stop alike, or whose next states stand in `R`. -/
inductive Outcomes (R : State → State → Prop) :
    Host.Outcome State Fault Refusal → Host.Outcome State Fault Refusal → Prop
  | next {s t} (states : R s t) : Outcomes R (.next s) (.next t)
  | fault (r) : Outcomes R (.fault r) (.fault r)
  | refused (r) : Outcomes R (.refused r) (.refused r)

/-- What stands in `R` looks alike, so the outcomes do. -/
theorem Outcomes.sameOutcome {R : State → State → Prop} {view : State → State}
    (hR : ∀ s t, R s t → view s = view t) {a b : Host.Outcome State Fault Refusal} (h : Outcomes R a b) :
    sameOutcome view a b := by
  cases h with
  | next states => exact hR _ _ states
  | fault r => rfl
  | refused r => rfl

theorem agree_refl (h : Hidden) (s : State) : Agree h s s :=
  ⟨rfl, fun _ => rfl, fun _ => rfl, fun _ => rfl, fun _ => rfl, fun _ => ⟨rfl, rfl, rfl⟩⟩

theorem outcomes_refl (h : Hidden) (o : Host.Outcome State Fault Refusal) : Outcomes (Agree h) o o := by
  cases o with
  | next s => exact .next (agree_refl h s)
  | fault r => exact .fault r
  | refused r => exact .refused r

section
variable {h : Hidden} {s t : State}

theorem Agree.shape (a : Agree h s t) : ∃ d, t = s.withStored d := ⟨_, a.same⟩

/-- With less hidden, states that agree agree with more hidden. -/
theorem Agree.hide_work (a : Agree { h with work := false } s t) : Agree h s t :=
  ⟨a.same, a.rdy, a.regS, a.regO, a.regC, fun _ => a.work rfl⟩

/-! ### Operations that touch none of these registers -/

theorem Agree.hostMove (a : Agree h s t) (script : List HostMove) (port : List Byte) (cancel : Bool) :
    Agree h { s with script := script, port := port, cancelPending := cancel }
      { t with script := script, port := port, cancelPending := cancel } := by
  obtain ⟨d, rfl⟩ := a.shape
  exact ⟨rfl, a.rdy, a.regS, a.regO, a.regC, a.work⟩

/-- RUN accepted, a word taken, or a response given. -/
theorem Agree.control (a : Agree h s t) (running : Bool) (port : List Byte) (response : Option Byte) :
    Agree h { s with running := running, port := port, response := response }
      { t with running := running, port := port, response := response } := by
  obtain ⟨d, rfl⟩ := a.shape
  exact ⟨rfl, a.rdy, a.regS, a.regO, a.regC, a.work⟩

theorem Agree.respond (a : Agree h s t) (r : Bool) (c : RespCode) : Agree h (s.respond r c) (t.respond r c) := by
  obtain ⟨d, rfl⟩ := a.shape
  exact a.control s.running s.port _

theorem Agree.takeCancel (a : Agree h s t) : Agree h (takeCancel s) (takeCancel t) := by
  obtain ⟨d, rfl⟩ := a.shape
  rw [takeCancel_eq, takeCancel_eq]
  exact ⟨rfl, a.rdy, a.regS, a.regO, a.regC, a.work⟩

/-- INIT neither reads nor writes them (R39, R130). -/
theorem initSequence_withStored (s : State) (d : Stored) :
    initSequence (s.withStored d) = (initSequence s).withStored d := by
  rcases init_ok_or_fail s with hok | ⟨k, hk, hok, hf⟩
  · rw [initSequence_ok s hok, initSequence_ok (s.withStored d) hok]; rfl
  · cases ho : s.handleOpen
    · rw [initSequence_fail s k hk ho hok hf, initSequence_fail (s.withStored d) k hk ho hok hf]; rfl
    · rw [initSequence_fail_open s k hk ho hok hf, initSequence_fail_open (s.withStored d) k hk ho hok hf]; rfl

theorem Agree.initSequence (a : Agree h s t) : Agree h (initSequence s) (initSequence t) := by
  obtain ⟨d, rfl⟩ := a.shape
  rw [initSequence_withStored]
  rcases initSequence_cases s with he | ⟨k, -, he⟩ <;> rw [he] <;>
    exact ⟨rfl, a.rdy, a.regS, a.regO, a.regC, a.work⟩

/-! ### Operations that write some of them -/

theorem Agree.pollCommand (a : Agree h s t) : Agree h (pollCommand s) (pollCommand t) := by
  obtain ⟨d, rfl⟩ := a.shape
  rw [pollCommand_eq, pollCommand_eq]
  exact ⟨rfl, fun _ => rfl, a.regS, a.regO, a.regC, a.work⟩

/-- READ's body by the answers to its sample (R134, R135). -/
theorem readCommand_of_answers (s : State) (r : Axis → AxisRead) (ha : s.answeredBy (sampleAnswers s.cfg r)) :
    readCommand s = { s.afterReads (sampleEvents s.cfg r) with
      regS := sampleValue s.cfg r, sValid := true, response := some (respWord false .ok) } := by
  simp [readCommand, readSample_of_answers s r ha, State.respond]

theorem Agree.readCommand (a : Agree h s t) : Agree h (readCommand s) (readCommand t) := by
  obtain ⟨d, rfl⟩ := a.shape
  obtain ⟨r, ha⟩ := sampleReads_exist s
  rw [readCommand_of_answers s r ha, readCommand_of_answers (s.withStored d) r ha]
  exact ⟨rfl, a.rdy, fun _ => rfl, a.regO, a.regC, a.work⟩

/-- CORR reads `S` and `O`, which are valid when it is admitted (R183). -/
theorem Agree.corrCommand (a : Agree h s t) (hS : s.sValid = true) (hO : s.oValid = true) :
    Agree h (corrCommand s) (corrCommand t) := by
  have hs := a.regS (.inr hS)
  have ho := a.regO (.inr hO)
  obtain ⟨d, rfl⟩ := a.shape
  rw [corrCommand_eq, corrCommand_eq, hs, ho]
  exact ⟨rfl, a.rdy, fun _ => rfl, fun _ => rfl, fun _ => rfl, a.work⟩

/-- `Iterate()` reads `O` alone (R185). -/
theorem Agree.iterate (a : Agree h s t) (hO : h.invalid = false ∨ s.oValid = true) :
    Agree h (iterate s) (iterate t) := by
  have ho := a.regO hO
  obtain ⟨d, rfl⟩ := a.shape
  by_cases hu : answerUnready s.nextAnswer
  · rw [iterate_unready hu, iterate_unready (s := s.withStored d) hu]
    exact ⟨rfl, fun _ => rfl, a.regS, a.regO, a.regC, a.work⟩
  · obtain ⟨r, ha, he⟩ := iterate_ready hu
    rw [he, iterate_ready_of_answers (s := s.withStored d) hu r ha]
    simp only [correctAndEmit, State.afterReads_regO, ho]
    exact ⟨rfl, fun _ => rfl, fun _ => rfl, fun _ => rfl, fun _ => rfl, a.work⟩

/-! ### CAL -/

/-- CAL begins by writing its working registers, so from there on they agree (R160). -/
theorem Agree.calStart (a : Agree h s t) : Agree { h with work := false } (calStart s) (calStart t) := by
  obtain ⟨d, rfl⟩ := a.shape
  exact ⟨rfl, a.rdy, a.regS, a.regO, a.regC, fun _ => ⟨rfl, rfl, rfl⟩⟩

/-- Passes or loops of CAL that leave in the same way, in states that agree. -/
inductive CalAgree (h : Hidden) : CalExit × State → CalExit × State → Prop
  | mk (exit : CalExit) {s t} (states : Agree h s t) : CalAgree h (exit, s) (exit, t)

theorem Agree.calPass (a : Agree h s t) (hw : h.work = false) : CalAgree h (calPass s) (calPass t) := by
  obtain ⟨hSum, hcnt, hstall⟩ := a.work hw
  obtain ⟨d, rfl⟩ := a.shape
  by_cases hu : answerUnready s.nextAnswer
  · rw [calPass_unready hu, calPass_unready (s := s.withStored d) hu, hstall]
    exact .mk _ ⟨rfl, fun _ => rfl, a.regS, a.regO, a.regC, fun _ => ⟨hSum, hcnt, rfl⟩⟩
  · obtain ⟨r, hr⟩ := sampleReads_exist (s.afterReads [.read s.cfg.devAddr s.cfg.regStatus s.nextAnswer])
    have ha : s.answeredBy (s.nextAnswer :: sampleAnswers s.cfg r) := (answeredBy_cons _).2 ⟨rfl, hr⟩
    rw [calPass_ready_of_answers hu r ha, calPass_ready_of_answers (s := s.withStored d) hu r ha, hSum, hcnt]
    exact .mk _ ⟨rfl, fun _ => rfl, fun _ => rfl, a.regO, a.regC, fun _ => ⟨rfl, rfl, rfl⟩⟩

theorem Agree.calLoop (a : Agree h s t) (hw : h.work = false) (n : Nat) : CalAgree h (calLoop n s) (calLoop n t) := by
  induction n generalizing s t with
  | zero => exact .mk _ a
  | succ n ih =>
    have hpass := a.calPass hw
    simp only [Machine.calLoop]
    generalize Machine.calPass s = p, Machine.calPass t = q at hpass
    obtain ⟨exit, states⟩ := hpass
    cases exit with
    | again => exact ih states
    | done => exact .mk _ states
    | stalled => exact .mk _ states

theorem Agree.calDone (a : Agree h s t) (hw : h.work = false) : Agree h (calDone s) (calDone t) := by
  obtain ⟨hSum, -, -⟩ := a.work hw
  obtain ⟨d, rfl⟩ := a.shape
  exact ⟨rfl, a.rdy, a.regS, fun _ => congrArg (calOffsets s.cfg) hSum, a.regC, a.work⟩

theorem Agree.calStalled (a : Agree h s t) : Agree h (calStalled s) (calStalled t) := by
  obtain ⟨d, rfl⟩ := a.shape
  exact ⟨rfl, a.rdy, a.regS, fun _ => rfl, a.regC, a.work⟩

theorem Agree.calCommand (a : Agree h s t) : Outcomes (Agree h) (calCommand s) (calCommand t) := by
  have hcfg : t.cfg = s.cfg := by rw [a.same]; rfl
  have hloop := a.calStart.calLoop rfl (calBound s.cfg)
  unfold Machine.calCommand
  rw [hcfg]
  generalize Machine.calLoop _ (Machine.calStart s) = p, Machine.calLoop _ (Machine.calStart t) = q at hloop
  obtain ⟨exit, states⟩ := hloop
  cases exit with
  | again => exact .fault _
  | done => exact .next (states.calDone rfl).hide_work
  | stalled => exact .next states.calStalled.hide_work

/-! ### A step -/

theorem Agree.withHandle (a : Agree h s t) {op : State → Host.Outcome State Fault Refusal}
    (hop : Outcomes (Agree h) (op s) (op t)) : Outcomes (Agree h) (withHandle s op) (withHandle t op) := by
  obtain ⟨d, rfl⟩ := a.shape
  cases ho : s.handleOpen
  · simp only [Machine.withHandle, State.withStored, ho]
    exact .fault _
  · rw [withHandle_open op ho, withHandle_open (s := s.withStored d) op ho]
    exact hop

theorem Agree.runIteration (a : Agree h s t) (hO : h.invalid = false ∨ s.oValid = true) :
    Outcomes (Agree h) (runIteration s) (runIteration t) := by
  have hc : t.cancelPending = s.cancelPending := by rw [a.same]; rfl
  unfold Machine.runIteration
  rw [hc]
  split
  · exact .next a.takeCancel
  · exact a.withHandle (.next (a.iterate hO))

/-- An admitted command reads `S` and `O` only where its row of R205 asks for their flags. -/
theorem Agree.performed (a : Agree h s t) (i : Instr) (hi : admitTable s i) :
    Outcomes (Agree h) (performed i s) (performed i t) := by
  cases i with
  | init => exact .next a.initSequence
  | poll => exact a.withHandle (op := fun u => .next (Machine.pollCommand u)) (.next a.pollCommand)
  | read => exact a.withHandle (op := fun u => .next (Machine.readCommand u)) (.next a.readCommand)
  | cal => exact a.withHandle a.calCommand
  | corr => exact .next (a.corrCommand hi.2.1 hi.2.2)
  | run =>
    obtain ⟨d, rfl⟩ := a.shape
    exact (a.control true s.port s.response).runIteration (.inr hi.2)

theorem Agree.exec (a : Agree h s t) (i : Instr) : Outcomes (Agree h) (exec i s) (exec i t) := by
  have hterm : t.terminal = s.terminal := by rw [a.same]; rfl
  have hcancel : t.cancelPending = s.cancelPending := by rw [a.same]; rfl
  have hadmits : admits i t = admits i s := by rw [a.same]; rfl
  rw [exec_eq_accept, exec_eq_accept]
  unfold accept
  rw [hterm, hcancel, hadmits]
  split_ifs with _ _ hi
  · exact .next (a.respond _ _)
  · exact .next a.takeCancel
  · exact a.performed i ((admits_iff i s).1 hi)
  · exact .next (a.respond _ _)

theorem Agree.blockTurn (a : Agree h s t) (hO : s.running = true → h.invalid = false ∨ s.oValid = true) :
    Outcomes (Agree h) (blockTurn s) (blockTurn t) := by
  have hrun : t.running = s.running := by rw [a.same]; rfl
  have hport : t.port = s.port := by rw [a.same]; rfl
  have htaken (rest : List Byte) :
      Agree h { s with port := rest, response := none } { t with port := rest, response := none } := by
    obtain ⟨d, rfl⟩ := a.shape
    exact a.control s.running rest none
  rcases blockTurn_cases s with
    ⟨hr, he⟩ | ⟨hr, hp, he⟩ | ⟨w, rest, e, hr, hp, hd, he⟩ | ⟨w, rest, i, hr, hp, hd, he⟩ <;> rw [he]
  · rw [blockTurn_running (hrun.trans hr)]
    exact a.runIteration (hO hr)
  · rw [blockTurn_idle (hrun.trans hr) (hport.trans hp)]
    exact .next a
  · rw [blockTurn_illegal (hrun.trans hr) (hport.trans hp) hd]
    exact .next ((htaken rest).respond _ _)
  · rw [blockTurn_command (hrun.trans hr) (hport.trans hp) hd]
    exact (htaken rest).exec i

/-- The host's move reads none of the registers. -/
theorem Agree.hostTurn (a : Agree h s t) : Outcomes (Agree h) (hostTurn s) (hostTurn t) := by
  obtain ⟨d, rfl⟩ := a.shape
  have quiet (hq : hostQuiet s) : Outcomes (Agree h) (Machine.hostTurn s) (Machine.hostTurn (s.withStored d)) := by
    rw [hostTurn_quiet hq, hostTurn_quiet (s := s.withStored d) hq]
    exact .next (a.hostMove s.script.tail s.port s.cancelPending)
  cases hs : s.script with
  | nil => exact quiet (.inl hs)
  | cons m rest =>
    cases m with
    | quiet => exact quiet (.inr ⟨rest, hs⟩)
    | present w =>
      rw [hostTurn_present hs, hostTurn_present (s := s.withStored d) hs]
      exact .next (a.hostMove rest (s.port ++ [w]) s.cancelPending)
    | cancel =>
      rw [hostTurn_cancel hs, hostTurn_cancel (s := s.withStored d) hs]
      exact .next (a.hostMove rest s.port true)
    | reset c =>
      rw [hostTurn_reset hs, hostTurn_reset (s := s.withStored d) hs]
      exact outcomes_refl h (applyReset c { s with script := rest })

/-- Two states that agree step to outcomes that agree; a RUN in progress reads `O`. -/
theorem Agree.step (a : Agree h s t) (hO : s.running = true → h.invalid = false ∨ s.oValid = true) :
    Outcomes (Agree h) (step s) (step t) := by
  have hrun : ∀ u, Machine.hostTurn s = .next u → u.running = true → h.invalid = false ∨ u.oValid = true := by
    intro u hu hr
    rcases hostTurn_next hu with ⟨script, port, cancel, rfl⟩ | ⟨rest, c, -, rfl⟩
    · exact hO hr
    · cases hr
  have hturn := a.hostTurn
  unfold Machine.step
  generalize Machine.hostTurn s = p, Machine.hostTurn t = q at hrun hturn
  cases hturn with
  | next states => exact states.blockTurn (hrun _ rfl)
  | fault r => exact .fault r
  | refused r => exact .refused r

end

/-! ### The two views -/

/-- `rdy` alone is hidden. -/
def Hidden.storedRdy : Hidden := { rdy := true, invalid := false, work := false }

/-- What `State.visible` hides. -/
def Hidden.noValue : Hidden := { rdy := false, invalid := true, work := true }

theorem view_of_agree_storedRdy (s t : State) (a : Agree .storedRdy s t) :
    ({ s with rdy := false } : State) = { t with rdy := false } := by
  obtain ⟨same, -, hS, hO, hC, hwork⟩ := a
  obtain ⟨hSum, hcnt, hstall⟩ := hwork rfl
  rw [same]
  simp [State.withStored, State.stored, hS (.inl rfl), hO (.inl rfl), hC (.inl rfl), hSum, hcnt, hstall]

theorem visible_of_agree (s t : State) (a : Agree .noValue s t) : s.visible = t.visible := by
  obtain ⟨same, hrdy, hS, hO, hC, -⟩ := a
  have hS : s.sValid = true → t.regS = s.regS := fun h => hS (.inr h)
  have hO : s.oValid = true → t.regO = s.regO := fun h => hO (.inr h)
  have hC : s.cValid = true → t.regC = s.regC := fun h => hC (.inr h)
  rw [same]
  simp +contextual [State.visible, State.withStored, State.stored, hrdy rfl, hS, hO, hC]

theorem agree_of_visible {s t : State} (hv : s.visible = t.visible) : Agree .noValue s t := by
  have seen {α : Type} (f : State → α) : f t.visible = f s.visible := congrArg f hv.symm
  have hs : t.sValid = s.sValid := seen State.sValid
  have ho : t.oValid = s.oValid := seen State.oValid
  have hc : t.cValid = s.cValid := seen State.cValid
  refine ⟨?_, fun _ => seen State.rdy, fun h => ?_, fun h => ?_, fun h => ?_, nofun⟩
  · calc t = t.visible.withStored t.stored := rfl
      _ = s.visible.withStored t.stored := by rw [hv]
      _ = s.withStored t.stored := rfl
  · simpa [State.visible, hs, h.resolve_left nofun] using seen State.regS
  · simpa [State.visible, ho, h.resolve_left nofun] using seen State.regO
  · simpa [State.visible, hc, h.resolve_left nofun] using seen State.regC

/-- Settles O49: states that differ in `rdy` agree, and so do the states they step to. -/
theorem storedRdyIsNeverRead : Obligations.StoredRdyIsNeverRead := by
  intro s b
  have a : Agree .storedRdy s { s with rdy := b } :=
    ⟨rfl, nofun, fun _ => rfl, fun _ => rfl, fun _ => rfl, fun _ => ⟨rfl, rfl, rfl⟩⟩
  exact (a.step fun _ => .inl rfl).sameOutcome view_of_agree_storedRdy

/-- Settles O48: states that look alike agree, and so do the states they step to. -/
theorem unwrittenRegistersAreNeverRead : Obligations.UnwrittenRegistersAreNeverRead := by
  intro s t hlive hv
  exact ((agree_of_visible hv).step fun hr => .inr (hlive hr)).sameOutcome visible_of_agree

end Sys2Proof.Machine
end

section
/-!
The register addresses (R8, R51, R52): the two output blocks lie apart, so the axis registers neither wrap nor collide.
-/

namespace Sys2Proof.Machine

/-- The block at `base` is the six addresses from `base` on (R51). -/
theorem mem_outputBlock (base : Byte) (n : Nat) :
    n ∈ outputBlock base ↔ base.toNat ≤ n ∧ n < base.toNat + 6 := by
  simp only [outputBlock, List.mem_map, List.mem_range]
  constructor
  · rintro ⟨k, hk, rfl⟩; omega
  · exact fun ⟨hle, hlt⟩ => ⟨n - base.toNat, by omega, by omega⟩

/-- R8's distinct registers, as far as the output blocks go: the status register is in neither, and they do not
overlap. -/
theorem outputBlocks_apart (c : Cfg) :
    (c.regStatus.toNat < c.accelBase.toNat ∨ c.accelBase.toNat + 6 ≤ c.regStatus.toNat) ∧
    (c.regStatus.toNat < c.gyroBase.toNat ∨ c.gyroBase.toNat + 6 ≤ c.regStatus.toNat) ∧
    (c.accelBase.toNat + 6 ≤ c.gyroBase.toNat ∨ c.gyroBase.toNat + 6 ≤ c.accelBase.toNat) := by
  obtain ⟨-, -, hDistinct, -⟩ := (isAdmitted_iff _).1 c.ok
  obtain ⟨hFirst, -, hGyro⟩ := List.nodup_append.1 hDistinct
  obtain ⟨-, -, hAccel⟩ := List.nodup_append.1 hFirst
  have statusAccel : c.regStatus.toNat ∉ outputBlock c.accelBase :=
    fun h => hAccel c.regStatus.toNat (by simp) _ h rfl
  have statusGyro : c.regStatus.toNat ∉ outputBlock c.gyroBase :=
    fun h => hGyro c.regStatus.toNat (by simp) _ h rfl
  have accelGyro : ∀ n ∈ outputBlock c.accelBase, n ∉ outputBlock c.gyroBase :=
    fun n ha hg => hGyro n (List.mem_append_right _ ha) n hg rfl
  simp only [mem_outputBlock] at statusAccel statusGyro accelGyro
  have accelInGyro := accelGyro c.accelBase.toNat
  have gyroInAccel := accelGyro c.gyroBase.toNat
  omega

/-- The index of an axis is its place in bus order (R22, R134). -/
theorem axes_getElem_index (i : Axis) : axes[i.index]? = some i := by cases i <;> rfl

theorem axis_index_lt (i : Axis) : i.index < 6 := (List.getElem?_eq_some_iff.1 (axes_getElem_index i)).1

theorem axis_index_inj {i j : Axis} (h : i.index = j.index) : i = j :=
  Option.some.inj <| calc
    some i = axes[i.index]? := (axes_getElem_index i).symm
    _ = axes[j.index]? := by rw [h]
    _ = some j := axes_getElem_index j

/-- Axis `i` stands in its block at twice its place, with no wrap-around (R52). -/
theorem axisBase_toNat (c : Cfg) (i : Axis) : (axisBase c i).toNat =
    if i.index < 3 then c.accelBase.toNat + 2 * i.index else c.gyroBase.toNat + 2 * (i.index - 3) := by
  obtain ⟨hAccel, hGyro, -⟩ := (isAdmitted_iff _).1 c.ok
  cases i <;> simp [axisBase, Axis.index, BitVec.toNat_add] <;> omega

/-- The high byte of an axis stands one above its low byte, with no wrap-around (R52). -/
theorem axisBase_succ_toNat (c : Cfg) (i : Axis) : (axisBase c i + 1).toNat = (axisBase c i).toNat + 1 := by
  obtain ⟨hAccel, hGyro, -⟩ := (isAdmitted_iff _).1 c.ok
  have hBase := axisBase_toNat c i
  have hi := axis_index_lt i
  have hLt : (axisBase c i).toNat + 1 < 2 ^ 8 := by rw [hBase]; split <;> omega
  exact BitVec.toNat_add_of_lt hLt

/-- Settles O33: addresses compared as numbers, where R8 keeps the blocks within a byte and apart. -/
theorem axisAddressesDoNotWrap : Obligations.AxisAddressesDoNotWrap := by
  intro c i
  obtain ⟨statusAccel, statusGyro, accelGyro⟩ := outputBlocks_apart c
  have hi := axis_index_lt i
  refine ⟨axisBase_toNat c i, axisBase_succ_toNat c i, ?_⟩
  simp only [ne_eq, ← BitVec.toNat_inj, axisBase_succ_toNat, axisBase_toNat]
  refine ⟨?_, ?_, fun j => ?_, fun j h => axis_index_inj ?_⟩
  · split_ifs <;> omega
  · split_ifs <;> omega
  · have hj := axis_index_lt j
    split_ifs <;> omega
  · have hj := axis_index_lt j
    split_ifs at h <;> omega

end Sys2Proof.Machine
end

section
/-!
The bus (R51, R53 to R57, R136): the traffic of a command and of an iteration, the handle it needs, and the discipline
every step keeps.
-/

namespace Sys2Proof.Machine

/-! ### The handle closed -/

theorem withHandle_closed {s : State} (op : State → Host.Outcome State Fault Refusal) (h : s.handleOpen = false) :
    withHandle s op = .fault .busHandleClosed := by
  simp [withHandle, h]

/-- Settles O17: the command is admitted, and its body begins by testing the handle. -/
theorem closedHandleStops : Obligations.ClosedHandleStops := by
  intro i s ready hc closed hi hcorr
  rw [exec_admitted i (terminal_of_ready ready) hc ((admits_iff i s).2 hi)]
  cases i with
  | init => exact absurd (ready.symm.trans hi) nofun
  | poll => exact withHandle_closed (fun u => .next (pollCommand u)) closed
  | read => exact withHandle_closed (fun u => .next (readCommand u)) closed
  | cal => exact withHandle_closed calCommand closed
  | corr => exact absurd rfl hcorr
  | run => simp [performed, runIteration, hc, withHandle_closed, closed]

/-! ### The traffic of a session that is served -/

/-- What a command but INIT, or an iteration of RUN, may add to TRACE: reads of the status register and of the axes
while the handle is open, the wait between polls, and records (R54, R57, R136). -/
inductive Served (c : Cfg) (handleOpen : Bool) : Event → Prop
  | status (opened : handleOpen = true) (a : Answer) : Served c handleOpen (.read c.devAddr c.regStatus a)
  | sample (opened : handleOpen = true) {e : Event} (read : isSampleRead c e) : Served c handleOpen e
  | wait : Served c handleOpen (.wait c.tPoll)
  | emit (v : Vec6) : Served c handleOpen (.emit v)

section
variable {c : Cfg} {b : Bool} {e : Event}

/-- None of it is a write (R55). -/
theorem Served.not_write (h : Served c b e) : isWrite e = false := by
  cases h with
  | status opened a => rfl
  | sample opened read => obtain ⟨i, a, rfl | rfl⟩ := read <;> rfl
  | wait => rfl
  | emit v => rfl

/-- All of it is on R136's list. -/
theorem Served.allowed (h : Served c b e) : eventAllowed c e := by
  cases h with
  | status opened a => exact ⟨rfl, .inl rfl⟩
  | sample opened read =>
    obtain ⟨i, a, rfl | rfl⟩ := read
    · exact ⟨rfl, .inr ⟨i, .inl rfl⟩⟩
    · exact ⟨rfl, .inr ⟨i, .inr rfl⟩⟩
  | wait => exact .inr (.inr rfl)
  | emit v => trivial

/-- None of it moves the handle, and each read finds it open (R57). -/
theorem Served.keeps_phase (h : Served c b e) {p : HandlePhase} (hp : b = true ↔ p = .open) :
    p.after e = some p := by
  cases h with
  | status opened a => exact if_pos (hp.1 opened)
  | sample opened read => obtain ⟨i, a, rfl | rfl⟩ := read <;> exact if_pos (hp.1 opened)
  | wait => rfl
  | emit v => rfl

end

section
variable {s t : State}

/-- From `s` to `t` the block has served: handle and configuration kept, TRACE extended by what `Served` lists. -/
structure Serves (s t : State) : Prop where
  cfg : t.cfg = s.cfg
  handleOpen : t.handleOpen = s.handleOpen
  trace : ∃ evs, t.trace = s.trace ++ evs ∧ ∀ e ∈ evs, Served s.cfg s.handleOpen e

theorem serves_pollCommand (opened : s.handleOpen = true) : Serves s (pollCommand s) := by
  rw [pollCommand_eq]
  exact ⟨rfl, rfl, _, rfl, by simpa using .status opened _⟩

theorem serves_readCommand (opened : s.handleOpen = true) : Serves s (readCommand s) := by
  obtain ⟨r, -, he⟩ := readCommand_cases s
  rw [he]
  exact ⟨rfl, rfl, _, rfl, fun e he => .sample opened (sampleEvents_sampleRead s.cfg r e he)⟩

theorem serves_calCommand (opened : s.handleOpen = true) (h : calCommand s = .next t) : Serves s t := by
  obtain ⟨evs, ready, valid, sample, sum, offsets, n, k, hevs, -, -, rfl⟩ := calCommand_next h
  refine ⟨rfl, rfl, evs, rfl, fun e he => ?_⟩
  rcases hevs e he with ⟨a, rfl⟩ | hsample
  · exact .status opened a
  · exact .sample opened hsample

theorem serves_corrCommand (s : State) : Serves s (corrCommand s) :=
  ⟨rfl, rfl, _, rfl, by simpa using .emit _⟩

theorem serves_iterate (opened : s.handleOpen = true) : Serves s (iterate s) := by
  rcases iterate_cases s with he | ⟨r, he⟩ <;> rw [he]
  · exact ⟨rfl, rfl, _, rfl, by simpa using ⟨.status opened _, .wait⟩⟩
  · refine ⟨rfl, rfl, _, List.append_assoc _ _ _, fun e he => ?_⟩
    simp only [List.cons_append, List.mem_cons, List.mem_append, List.not_mem_nil, or_false] at he
    rcases he with rfl | he | rfl
    · exact .status opened _
    · exact .sample opened (sampleEvents_sampleRead s.cfg r e he)
    · exact .emit _

/-- Executing a command serves, takes the cancellation in its place, or is INIT's sequence. -/
theorem Executes.traffic {i : Instr} (h : Executes i s t) :
    Serves s t ∨ t = takeCancel s ∨ (i = .init ∧ s.dstate = .uninitialized ∧ t = initSequence s) := by
  cases h with
  | refused why => exact .inl ⟨rfl, rfl, [], (List.append_nil _).symm, by simp⟩
  | cancelled live pending => exact .inr (.inl rfl)
  | init fresh => exact .inr (.inr ⟨rfl, fresh, rfl⟩)
  | poll ready opened => exact .inl (serves_pollCommand opened)
  | read ready opened => exact .inl (serves_readCommand opened)
  | cal ready noOffsets ends opened => exact .inl (serves_calCommand opened ends)
  | corr ready sample offsets => exact .inl (serves_corrCommand s)
  | run ready offsets opened =>
    obtain ⟨hcfg, hhandle, htrace⟩ := serves_iterate (s := { s with running := true }) opened
    exact .inl ⟨hcfg, hhandle, htrace⟩

end

/-- Settles O46: what a command but INIT adds to TRACE is served, or the cancellation's `Close`. -/
theorem onlyInitWritesTheBus : Obligations.OnlyInitWritesTheBus := by
  intro i s t hi h
  rcases (executes_of_exec h).traffic with ⟨-, -, evs, htrace, hevs⟩ | rfl | ⟨hinit, -, -⟩
  · exact ⟨evs, htrace, fun e he => (hevs e he).not_write⟩
  · rw [takeCancel_eq]
    cases s.handleOpen
    · exact ⟨[], (List.append_nil _).symm, by simp⟩
    · exact ⟨[.close], rfl, by simp [isWrite]⟩
  · exact absurd hinit hi

/-! ### The handle along a trace -/

theorem handlePhase_append {a b : List Event} {p : HandlePhase} (h : handlePhase a = some p) :
    handlePhase (a ++ b) = b.foldlM HandlePhase.after p := by
  rw [handlePhase, List.foldlM_append]
  exact congrArg (· >>= _) h

/-- Events that each leave the handle where it is leave it there together. -/
theorem foldlM_after_of_keeps {p : HandlePhase} {evs : List Event} (h : ∀ e ∈ evs, p.after e = some p) :
    evs.foldlM HandlePhase.after p = some p := by
  induction evs with
  | nil => rfl
  | cons e evs ih =>
    obtain ⟨he, hevs⟩ := List.forall_mem_cons.1 h
    rw [List.foldlM_cons, he]
    exact ih hevs

theorem handlePhase_initTrace (c : Cfg) : handlePhase (initTrace c) = some .open := rfl

theorem handlePhase_initFailTrace (c : Cfg) {k : Nat} (hk : k < 5) :
    handlePhase (initFailTrace c k) = some .closed := by
  interval_cases k <;> rfl

theorem initTrace_allowed (c : Cfg) : ∀ e ∈ initTrace c, eventAllowed c e := by
  simp [initTrace, eventAllowed]

theorem initFailTrace_allowed (c : Cfg) {k : Nat} (hk : k < 5) : ∀ e ∈ initFailTrace c k, eventAllowed c e := by
  interval_cases k <;> simp [initFailTrace, initTrace, eventAllowed]

/-! ### The discipline along a step -/

/-- INIT from `UNINITIALIZED`, where nothing has been issued and the handle is closed: its one `Open`, then its writes,
and a `Close` after the first failure (R130, R203). -/
theorem busInv_initSequence {s : State} (h : Inv s) (hu : s.dstate = .uninitialized) :
    BusInv (initSequence s) := by
  have hclosed : s.handleOpen = false := by simpa [hu] using h.handle
  rcases initSequence_cases s with he | ⟨k, hk, he⟩ <;> rw [he]
  · simp only [h.fresh hu, List.nil_append]
    exact ⟨initTrace_allowed s.cfg, .open, handlePhase_initTrace s.cfg, by simp⟩
  · simp only [h.fresh hu, hclosed, Bool.false_eq_true, false_and, if_false, List.nil_append, List.append_nil]
    exact ⟨initFailTrace_allowed s.cfg hk, .closed, handlePhase_initFailTrace s.cfg hk, by simp⟩

section
variable {s t : State} (h : BusInv s)
include h

/-- What is served is on the list, and each read of it finds the handle open. -/
theorem BusInv.serves (k : Serves s t) : BusInv t := by
  obtain ⟨p, hphase, hp⟩ := h.phase
  obtain ⟨hcfg, hhandle, evs, htrace, hevs⟩ := k
  refine ⟨?_, p, ?_, by rw [hhandle]; exact hp⟩
  · rw [htrace, hcfg]
    exact List.forall_mem_append.2 ⟨h.allowed, fun e he => (hevs e he).allowed⟩
  · rw [htrace, handlePhase_append hphase]
    exact foldlM_after_of_keeps fun e he => (hevs e he).keeps_phase hp

/-- The cancellation closes an open handle, and issues nothing with the handle closed (R211). -/
theorem BusInv.takeCancel : BusInv (takeCancel s) := by
  obtain ⟨p, hphase, hp⟩ := h.phase
  rw [takeCancel_eq]
  cases hopen : s.handleOpen with
  | false => exact ⟨h.allowed, p, hphase, by rw [← hp, hopen]⟩
  | true =>
    refine ⟨List.forall_mem_append.2 ⟨h.allowed, by simp [eventAllowed]⟩, .closed, ?_, by simp⟩
    rw [hp.1 hopen] at hphase
    exact handlePhase_append hphase

/-- The invariant is there for INIT, which must find nothing issued (R53). -/
theorem BusInv.executes {i : Instr} (hInv : Inv s) (e : Executes i s t) : BusInv t := by
  rcases e.traffic with k | rfl | ⟨-, hu, rfl⟩
  · exact h.serves k
  · exact h.takeCancel
  · exact busInv_initSequence hInv hu

theorem BusInv.turn (hInv : Inv s) (e : Turn s t) : BusInv t := by
  cases e with
  | cancelled running pending => exact h.takeCancel
  | iterated running opened => exact h.serves (serves_iterate opened)
  | idle idle empty => exact h
  | illegal idle => exact ⟨h.allowed, h.phase⟩
  | @executed i rest t idle does =>
    have taken : BusInv { s with port := rest, response := none } := ⟨h.allowed, h.phase⟩
    exact taken.executes (hInv.idle_response idle rest none) does

end

/-- Settles O40: the host's move keeps the discipline or resets into it, and every turn of the block keeps it. -/
theorem stepKeepsBusDiscipline : Obligations.StepKeepsBusDiscipline := by
  intro s t hInv hBus hst
  obtain ⟨u, hu, ht⟩ := step_turn hst
  rcases hostTurn_next hu with ⟨script, port, cancel, rfl⟩ | ⟨rest, c, -, rfl⟩
  · have moved : BusInv { s with script := script, port := port, cancelPending := cancel } :=
      ⟨hBus.allowed, hBus.phase⟩
    exact moved.turn (hInv.hostMove script port cancel) ht
  · have reset : BusInv { State.resetWith c with script := rest, answers := s.answers, draws := s.draws } :=
      ⟨(busInv_reset c).allowed, (busInv_reset c).phase⟩
    exact reset.turn (inv_reset c rest s.answers s.draws) ht

end Sys2Proof.Machine
end

section
/-!
The words at the block's ports (R81 to R84, R88): command words, the illegal ones among them, response words and the
status byte.
-/

namespace Sys2Proof.Machine

/-! ### Command words -/

/-- An `op` code selects the command whose word holds it in bits 3:0, under a zero field of 0 (R81, R82). -/
theorem opInstr_eq_some_iff (op : BitVec 4) (i : Instr) : opInstr op = some i ↔ (0 : BitVec 4) ++ op = encode i := by
  revert op
  cases i <;> decide

/-- A command word is its two fields, `zero` above `op` (R81). -/
theorem cmdZero_append_cmdOp (w : Byte) : cmdZero w ++ cmdOp w = w := calc
  cmdZero w ++ cmdOp w = w.extractLsb' 0 8 := BitVec.extractLsb'_append_extractLsb'_eq_extractLsb' rfl
  _ = w := BitVec.extractLsb'_eq_self

/-- Every instruction's word is legal and decodes to it, from the six cases of Laws/PerInstr.lean. -/
theorem roundTrip (i : Instr) : Laws.RoundTrip.Statement i := by
  cases i with
  | init => exact Laws.RoundTrip.init
  | poll => exact Laws.RoundTrip.poll
  | read => exact Laws.RoundTrip.read
  | cal => exact Laws.RoundTrip.cal
  | corr => exact Laws.RoundTrip.corr
  | run => exact Laws.RoundTrip.run

/-- A word decodes to a command exactly if it is that command's word (R82). -/
theorem decode_eq_ok_iff (w : Byte) (i : Instr) : decode w = .ok i ↔ w = encode i := by
  constructor
  · intro h
    unfold decode at h
    split_ifs at h with hz
    split at h
    · next j hop =>
      cases h
      have hword := (opInstr_eq_some_iff _ _).1 hop
      rwa [← not_not.1 hz, cmdZero_append_cmdOp] at hword
    · cases h
  · rintro rfl
    exact (roundTrip i).2

/-- The words outside `0x01` to `0x06` do not decode (R84). -/
theorem decode_error_of_illegal {w : Byte} (h : w.toNat = 0 ∨ 7 ≤ w.toNat) : ∃ e, decode w = .error e := by
  cases hd : decode w with
  | error e => exact ⟨e, rfl⟩
  | ok i =>
    have hlegal : 1 ≤ (encode i).toNat ∧ (encode i).toNat ≤ 6 := by cases i <;> decide
    rw [(decode_eq_ok_iff w i).1 hd] at h
    omega

/-- Settles O1, instruction by instruction. -/
theorem encodeThenDecode : Obligations.EncodeThenDecode := fun i _ => roundTrip i

/-- Settles O2: decoding inverts `encode`, whose values are the table. -/
theorem commandCodesOfTheTable : Obligations.CommandCodesOfTheTable := by
  intro w i
  rw [decode_eq_ok_iff]
  cases i <;> simp [encode]

/-- Settles O7: the word does not decode, so the block's turn is the ILLEGAL answer, before any test of the driver state
or of the latch. -/
theorem illegalWordChangesNothing : Obligations.IllegalWordChangesNothing := by
  intro s w rest hr hq hp hw
  obtain ⟨e, hd⟩ := decode_error_of_illegal hw
  rw [step_of_hostTurn (hostTurn_quiet hq)]
  exact blockTurn_illegal hr hp hd

/-! ### Response words -/

theorem respWord_rdy (r : Bool) (c : RespCode) : (respWord r c).getLsbD 7 = r := by
  rw [respWord, BitVec.getLsbD_append, BitVec.getLsbD_append]
  cases r <;> rfl

theorem respWord_zero (r : Bool) (c : RespCode) : (respWord r c).extractLsb' 3 4 = 0 := by
  rw [respWord, BitVec.extractLsb'_append_eq_of_le (Nat.le_refl 3)]
  exact BitVec.extractLsb'_append_eq_right

theorem respWord_code (r : Bool) (c : RespCode) : (respWord r c).extractLsb' 0 3 = c.bits :=
  BitVec.extractLsb'_append_eq_right

/-- Settles O3, field by field. -/
theorem responseFormat : Obligations.ResponseFormat := by
  intro r c
  refine ⟨respWord_rdy r c, respWord_zero r c, (respWord_code r c).trans ?_⟩
  cases c <;> rfl

/-! ### The status byte -/

/-- Settles O4: the test is of the value of bits 1:0, which is 0 exactly if both bits are. -/
theorem statusTestsTwoBits : Obligations.StatusTestsTwoBits := by
  intro st
  rw [Bool.eq_iff_iff, statusReady_iff, Bool.or_eq_true]
  simp only [statusAccRdy, statusGyrRdy, BitVec.getLsbD, Nat.testBit_eq_decide_div_mod_eq, decide_eq_true_eq]
  omega

end Sys2Proof.Machine
end

section
/-!
A `CYCLE` of commands and an iteration of RUN (R93, R185, 90_conflicts.md C6).
-/

namespace Sys2Proof.Machine

section
variable {s t : State}

/-! ### Commands served -/

/-- A session that goes on is still served. -/
theorem GoesOn.canServe (k : GoesOn s t) (h : canServe s) : canServe t := by
  obtain ⟨ready, hc, opened⟩ := h
  exact ⟨k.dstate.trans ready, k.cancelPending.trans hc, k.handleOpen.trans opened⟩

/-- A command whose row of R205 admits it is performed. -/
theorem exec_served {i : Instr} (h : canServe s) (hi : admitTable s i) : exec i s = performed i s := by
  obtain ⟨ready, hc, -⟩ := h
  exact exec_admitted i (terminal_of_ready ready) hc ((admits_iff i s).2 hi)

theorem exec_poll_served (h : canServe s) : exec .poll s = .next (pollCommand s) := by
  have ⟨ready, _, opened⟩ := h
  exact (exec_served (i := .poll) h ready).trans (withHandle_open (fun u => .next (pollCommand u)) opened)

theorem exec_read_served (h : canServe s) : exec .read s = .next (readCommand s) := by
  have ⟨ready, _, opened⟩ := h
  exact (exec_served (i := .read) h ready).trans (withHandle_open (fun u => .next (readCommand u)) opened)

theorem exec_corr_served (h : canServe s) (hS : s.sValid = true) (hO : s.oValid = true) :
    exec .corr s = .next (corrCommand s) :=
  exec_served (i := .corr) h ⟨h.1, hS, hO⟩

theorem exec_run_served (h : canServe s) (hO : s.oValid = true) :
    exec .run s = .next (iterate { s with running := true }) := by
  have ⟨ready, hc, opened⟩ := h
  rw [exec_served (i := .run) h ⟨ready, hO⟩]
  simp [performed, runIteration, withHandle, hc, opened]

/-! ### POLL's answer -/

/-- POLL answers `0x80` exactly if its poll is ready (R133). -/
theorem pollCommand_response_ready_iff (s : State) :
    (pollCommand s).response = some 0x80 ↔ ¬ answerUnready s.nextAnswer := by
  rw [pollCommand_eq, ← statusReady_statusByte]
  cases statusReady (statusByte s.nextAnswer) <;> simp <;> decide

/-! ### The cycle and the iteration -/

/-- `Iterate()` neither reads nor writes whether RUN is in progress (R185). -/
theorem iterate_setRunning (s : State) (b : Bool) :
    iterate { s with running := b } = { iterate s with running := b } := by
  by_cases hu : answerUnready s.nextAnswer
  · rw [iterate_unready hu, iterate_unready (s := { s with running := b }) hu]; rfl
  · obtain ⟨r, ha, he⟩ := iterate_ready hu
    rw [he, iterate_ready_of_answers (s := { s with running := b }) hu r ha]; rfl

/-- On a ready tick `Iterate()` is POLL, READ and CORR but for their responses (R93, R185). -/
theorem iterate_eq_cycle (h : ¬ answerUnready s.nextAnswer) :
    iterate s = { corrCommand (readCommand (pollCommand s)) with response := s.response } := by
  obtain ⟨r, ha, he⟩ := iterate_ready h
  have hread : (pollCommand s).answeredBy (sampleAnswers s.cfg r) := by
    rw [pollCommand_eq]
    exact ((answeredBy_cons _).1 ha).2
  rw [he, readCommand_of_answers (pollCommand s) r hread, corrCommand_eq, pollCommand_eq,
    statusReady_of_not_unready h]
  simp [correctAndEmit, State.emit, State.afterReads, Nat.add_assoc, Nat.add_comm 1]

/-- On an unready poll `Iterate()` is POLL and a wait, but for the response (R93, R185). -/
theorem iterate_eq_poll_wait (h : answerUnready s.nextAnswer) : iterate s =
    { pollCommand s with response := s.response, trace := (pollCommand s).trace ++ [.wait s.cfg.tPoll] } := by
  rw [iterate_unready h, pollCommand_eq, (statusReady_statusByte _).2 h]
  simp [State.afterReads]

end

/-- Settles O30: POLL's answer tells whether the tick is ready; READ and CORR are served in the states it leaves. -/
theorem cycleEqualsIteration : Obligations.CycleEqualsIteration := by
  intro s h hO
  refine ⟨pollCommand s, exec_poll_served h, fun hready => ?_, fun hunready => ?_⟩
  · have hPoll : canServe (pollCommand s) := (goesOn_pollCommand s).canServe h
    have hRead : canServe (readCommand (pollCommand s)) := (goesOn_readCommand _).canServe hPoll
    obtain ⟨hSample, hOffsets⟩ :
        (readCommand (pollCommand s)).sValid = true ∧ (readCommand (pollCommand s)).oValid = true := by
      obtain ⟨r, -, he⟩ := readCommand_cases (pollCommand s)
      rw [he, pollCommand_eq]
      exact ⟨rfl, hO⟩
    refine ⟨_, _, exec_read_served hPoll, exec_corr_served hRead hSample hOffsets, rfl, ?_⟩
    rw [exec_run_served h hO, iterate_setRunning, iterate_eq_cycle ((pollCommand_response_ready_iff s).1 hready)]
  · rw [exec_run_served h hO, iterate_setRunning, iterate_eq_poll_wait]
    exact not_not.1 fun hn => hunready ((pollCommand_response_ready_iff s).2 hn)

end Sys2Proof.Machine
end

section
/-!
The codec (R110, R111, R113) and the command READ made of it (R134, R135).
-/

namespace Sys2Proof.Machine

/-! ### `Decode16` -/

/-- `Decode16` by the value of the byte pair (R110). -/
theorem decode16_eq_ite (lo hi : Byte) : decode16 lo hi =
    if 256 * hi.toNat + lo.toNat < 0x8000 then ((256 * hi.toNat + lo.toNat : Nat) : Int)
    else ((256 * hi.toNat + lo.toNat : Nat) : Int) - 65536 := by
  rw [decode16, pair16_eq, Nat.mul_comm, sext16]

/-- `Decode16` is the signed value of the 16-bit word `hi` above `lo` (R12, R90, R110). -/
theorem decode16_eq_toInt (lo hi : Byte) : decode16 lo hi = (hi ++ lo).toInt := by
  have hw : (hi ++ lo).toNat = pair16 lo hi := BitVec.toNat_append hi lo
  simp only [decode16, sext16, BitVec.toInt_eq_toNat_cond, hw]
  split_ifs <;> omega

theorem decode16_range (lo hi : Byte) : -32768 ≤ decode16 lo hi ∧ decode16 lo hi ≤ 32767 := by
  rw [decode16_eq_toInt]
  exact ⟨BitVec.le_toInt (hi ++ lo), Int.le_of_lt_add_one (BitVec.toInt_lt (x := hi ++ lo))⟩

/-- Only one byte pair decodes to the signed value of a word: the word's two bytes. -/
theorem decode16_eq_toInt_iff (lo hi : Byte) (w : BitVec 16) :
    decode16 lo hi = w.toInt ↔ lo = w.extractLsb' 0 8 ∧ hi = w.extractLsb' 8 8 := by
  rw [decode16_eq_toInt, BitVec.toInt_inj]
  constructor
  · rintro rfl
    exact ⟨BitVec.extractLsb'_append_eq_right.symm, BitVec.extractLsb'_append_eq_left.symm⟩
  · rintro ⟨rfl, rfl⟩
    exact (BitVec.extractLsb'_append_extractLsb'_eq_extractLsb' rfl).trans BitVec.extractLsb'_eq_self

/-- Settles O31: the byte pairs are the 16-bit words, and the words are the integers of the range by their signed
values. -/
theorem decode16IsABijection : Obligations.Decode16IsABijection := by
  refine ⟨fun lo hi => ⟨decode16_eq_ite lo hi, decode16_range lo hi⟩, fun n hmin hmax => ?_⟩
  have hn : (BitVec.ofInt 16 n).toInt = n :=
    BitVec.toInt_ofInt_eq_self (by decide) hmin (Int.lt_add_one_of_le hmax)
  have hpair := fun lo hi => decode16_eq_toInt_iff lo hi (BitVec.ofInt 16 n)
  rw [hn] at hpair
  exact ⟨_, _, (hpair _ _).2 ⟨rfl, rfl⟩, fun lo' hi' => (hpair lo' hi').1⟩

/-! ### `Scale` -/

/-- Settles O32: `Scale` is the product in `Num`, and the integers embed in `Num` as a ring. -/
theorem scaleIsLinear : Obligations.ScaleIsLinear := by
  intro a b f
  refine ⟨rfl, mul_comm _ _, ?_, mul_zero _, ?_, ?_⟩
  · rw [scale, Int.cast_zero, zero_mul]
  · rw [scale, Int.cast_neg, neg_mul, scale]
  · rw [scale, Int.cast_add, add_mul, scale, scale]

/-! ### READ -/

/-- Settles O20: READ is served, and its body is one `ReadSample()` with the answers the bus gives to it. -/
theorem readReadsAllSixAxes : Obligations.ReadReadsAllSixAxes := by
  refine fun s h => ⟨sampleReads_exist s, fun r ha => ?_⟩
  rw [exec_read_served h, readCommand_of_answers s r ha, ← sampleEvents_length]
  rfl

end Sys2Proof.Machine
end

section
/-!
The driver's commands INIT and POLL (R130, R132, R133, R203).
-/

namespace Sys2Proof.Machine

/-! ### INIT -/

/-- INIT in `UNINITIALIZED` with no cancellation pending is performed (R205). -/
theorem exec_init_performed {s : State} (fresh : s.dstate = .uninitialized) (hc : s.cancelPending = false) :
    exec .init s = .next (initSequence s) :=
  exec_admitted .init (by rw [State.terminal, fresh]) hc ((admits_iff .init s).2 fresh)

/-- Settles O18: INIT is performed, and its body is the sequence, run to its end or to its first failing primitive. -/
theorem initRunsItsSequence : Obligations.InitRunsItsSequence := by
  constructor
  · intro s fresh hc hok
    rw [exec_init_performed fresh hc, initSequence_ok s hok]
    rfl
  · intro s k hk fresh hc closed hok hfail
    have hnot : (s.answerAt k).isOk = false := by rw [hfail, Answer.isOk]
    rw [exec_init_performed fresh hc, initSequence_fail s k hk closed hok hnot]
    rfl

/-! ### POLL -/

/-- The response words of POLL (R83, R133). -/
theorem respWord_ok_eq_ite (r : Bool) : respWord r .ok = if r then 0x80 else 0x00 := by cases r <;> rfl

/-- Settles O19: POLL is served, and its body is one status read: a failed one is taken as not ready, and a byte is
tested in its two low bits. -/
theorem pollReportsDataReady : Obligations.PollReportsDataReady := by
  intro s r h hr
  have hready : statusReady (statusByte s.nextAnswer) = r := by
    rw [hr, nextAnswer_eq_answerAt]
    cases s.answerAt 0 with
    | fail => rfl
    | ok st => exact statusTestsTwoBits st
  rw [exec_poll_served h, pollCommand_eq, hready, respWord_ok_eq_ite, nextAnswer_eq_answerAt]
  simp [State.afterReads]

end Sys2Proof.Machine
end

section
/-!
CAL (R160 to R165): what its loop does on ticks and on unready polls, that the answers ahead are ticks enough or end in
a stall, and the bounds on its polls.
-/

namespace Sys2Proof.Machine

/-! ### The traffic of ticks -/

/-- The polls of a tick: its unready ones and the ready one. -/
def Tick.polls (k : Tick) : Nat := k.unready.length + 1

/-- The polls of a calibration's ticks. -/
def tickPolls (ks : List Tick) : Nat := (ks.map Tick.polls).sum

section
variable (c : Cfg)

@[simp] theorem pollEvents_length (us : List Answer) : (pollEvents c us).length = us.length := List.length_map _

theorem tick_events_length (k : Tick) : (k.events c).length = (k.answers c).length := by
  simp only [Tick.events, Tick.answers, List.length_append, List.length_cons, List.length_nil, pollEvents_length,
    sampleEvents_length]
  omega

theorem ticks_events_length (ks : List Tick) :
    (ks.flatMap (Tick.events c)).length = (ks.flatMap (Tick.answers c)).length := by
  simp only [List.length_flatMap, tick_events_length]

/-- Ticks that do not stall have no more polls than R165 allows them. -/
theorem tickPolls_le {c : Cfg} {ks : List Tick} (hv : ∀ k ∈ ks, k.valid c) :
    tickPolls ks ≤ ks.length * (c.stallLimit + 1) := by
  have hle : ∀ n ∈ ks.map Tick.polls, n ≤ c.stallLimit + 1 := by
    intro n hn
    obtain ⟨k, hk, rfl⟩ := List.mem_map.1 hn
    obtain ⟨-, hlen, -⟩ := hv k hk
    exact Nat.succ_le_succ hlen
  simpa [tickPolls] using List.sum_le_card_nsmul _ _ hle

/-- Fewer ticks than a target and then a stall have no more polls than R165 allows the target. -/
theorem tickPolls_add_stall_le {c : Cfg} {ks : List Tick} {target : Nat} (hlen : ks.length < target)
    (hv : ∀ k ∈ ks, k.valid c) : tickPolls ks + (c.stallLimit + 1) ≤ target * (c.stallLimit + 1) := calc
  tickPolls ks + (c.stallLimit + 1) ≤ ks.length * (c.stallLimit + 1) + (c.stallLimit + 1) :=
    Nat.add_le_add_right (tickPolls_le hv) _
  _ = (ks.length + 1) * (c.stallLimit + 1) := (Nat.succ_mul _ _).symm
  _ ≤ target * (c.stallLimit + 1) := Nat.mul_le_mul_right _ hlen

theorem length_le_tickPolls (ks : List Tick) : ks.length ≤ tickPolls ks := by
  induction ks with
  | nil => exact Nat.le_refl 0
  | cons k ks ih =>
    simp only [tickPolls, Tick.polls, List.map_cons, List.sum_cons, List.length_cons] at ih ⊢
    omega

end

/-! ### The registers of CAL's loop after polls and ticks -/

section
variable (s : State)

/-- What unready polls leave in CAL's loop: `rdy` 0 and each counted in `STALL` (R160). -/
def State.afterPolls (us : List Answer) : State :=
  { s.afterReads (pollEvents s.cfg us) with rdy := s.rdy && us.isEmpty, stall := s.stall + us.length }

/-- What a tick leaves in CAL's loop: its sample in `S`, summed and counted, and `STALL` cleared (R160). -/
def State.afterTick (k : Tick) : State :=
  { s.afterReads (k.events s.cfg) with
    rdy := true, regS := sampleValue s.cfg k.reads, sValid := true
    regSUM := addSample s.regSUM (sampleValue s.cfg k.reads), cnt := s.cnt + 1, stall := 0 }

/-- What ticks leave in CAL's loop: the last sample in `S`, all of them summed and counted, and `STALL` at 0 (R160,
R161). -/
def State.afterTicks (ks : List Tick) : State :=
  { s.afterReads (ks.flatMap (Tick.events s.cfg)) with
    rdy := s.rdy || !ks.isEmpty
    regS := (tickSamples s.cfg ks).getLast?.getD s.regS, sValid := s.sValid || !ks.isEmpty
    regSUM := Vec6.ofFn fun i => s.regSUM.get i + axisSum (tickSamples s.cfg ks) i
    cnt := s.cnt + ks.length, stall := 0 }

@[simp] theorem State.afterPolls_cfg (us : List Answer) : (s.afterPolls us).cfg = s.cfg := rfl
@[simp] theorem State.afterPolls_stall (us : List Answer) : (s.afterPolls us).stall = s.stall + us.length := rfl

@[simp] theorem State.afterTick_cfg (k : Tick) : (s.afterTick k).cfg = s.cfg := rfl
@[simp] theorem State.afterTick_cnt (k : Tick) : (s.afterTick k).cnt = s.cnt + 1 := rfl

theorem State.afterPolls_nil : s.afterPolls [] = s := by
  simp [State.afterPolls, pollEvents]

theorem State.afterPolls_cons (a : Answer) (us : List Answer) :
    (s.afterPolls [a]).afterPolls us = s.afterPolls (a :: us) := by
  simp [State.afterPolls, pollEvents, State.afterReads, Nat.add_assoc, Nat.add_comm 1]

theorem State.afterTicks_nil (h : s.stall = 0) : s.afterTicks [] = s := by
  have hsum : (Vec6.ofFn fun i => s.regSUM.get i + axisSum [] i) = s.regSUM :=
    Vec6.ext_get fun i => by simp [axisSum]
  cases s
  simp_all [State.afterTicks, tickSamples, State.afterReads]

/-- A tick is its unready polls, then a pass that sums its sample. -/
theorem State.afterTick_eq (k : Tick) : s.afterTick k =
    { (s.afterPolls k.unready).afterReads
        (.read s.cfg.devAddr s.cfg.regStatus (.ok k.status) :: sampleEvents s.cfg k.reads) with
      rdy := true, regS := sampleValue s.cfg k.reads, sValid := true
      regSUM := addSample s.regSUM (sampleValue s.cfg k.reads), cnt := s.cnt + 1, stall := 0 } := by
  simp [State.afterTick, State.afterPolls, State.afterReads, Tick.events, pollEvents, Nat.add_assoc]

theorem State.afterTicks_cons (k : Tick) (ks : List Tick) : (s.afterTick k).afterTicks ks = s.afterTicks (k :: ks) := by
  simp [State.afterTicks, State.afterTick, State.afterReads, tickSamples, axisSum, List.getLast?_cons, Nat.add_comm 1,
    add_assoc]

end

/-! ### CAL's loop on polls and ticks -/

section
variable {s : State}

/-- The loop by its next pass, which leaves it by the exit `x` on `p` and goes on otherwise. -/
theorem calLoop_succ {p : Prop} [Decidable p] {x : CalExit} {t : State}
    (h : calPass s = (if p then x else .again, t)) (hx : x ≠ .again) (n : Nat) :
    calLoop (n + 1) s = if p then (x, t) else calLoop n t := by
  rw [calLoop, h]
  split_ifs
  · cases x with
    | again => exact absurd rfl hx
    | done => rfl
    | stalled => rfl
  · rfl

/-- The loop on unready polls: it counts them all, or leaves by the `stalled` exit on the one past the limit (R164). -/
theorem calLoop_polls {us : List Answer} (hu : ∀ a ∈ us, answerUnready a) (ha : s.answeredBy us)
    (hlo : s.stall ≤ s.cfg.stallLimit) (hhi : s.stall + us.length ≤ s.cfg.stallLimit + 1) (n : Nat) :
    calLoop (us.length + n) s =
      if s.stall + us.length > s.cfg.stallLimit then (.stalled, s.afterPolls us) else calLoop n (s.afterPolls us) := by
  induction us generalizing s with
  | nil => simp [State.afterPolls_nil, hlo]
  | cons a us ih =>
    obtain ⟨rfl, hrest⟩ := (answeredBy_cons (.read s.cfg.devAddr s.cfg.regStatus a)).1 ha
    obtain ⟨hfirst, hu⟩ := List.forall_mem_cons.1 hu
    have hpass : calPass s =
        (if s.stall + 1 > s.cfg.stallLimit then .stalled else .again, s.afterPolls [s.nextAnswer]) := by
      rw [calPass_unready hfirst]
      simp [State.afterPolls, pollEvents]
    rw [List.length_cons] at hhi ⊢
    rw [Nat.add_right_comm, calLoop_succ hpass nofun]
    by_cases hstall : s.stall + 1 > s.cfg.stallLimit
    · obtain rfl : us = [] := List.eq_nil_of_length_eq_zero (by omega)
      simp [hstall]
    · have hlo' : s.stall + 1 ≤ s.cfg.stallLimit := by omega
      have hhi' : s.stall + 1 + us.length ≤ s.cfg.stallLimit + 1 := by omega
      rw [if_neg hstall, ih (s := s.afterPolls [s.nextAnswer]) hu hrest hlo' hhi', State.afterPolls_cons]
      simp [Nat.add_assoc, Nat.add_comm 1]

/-- The loop on a tick: it goes on, or leaves by the `done` exit with the target reached (R160). -/
theorem calLoop_tick {k : Tick} (hv : k.valid s.cfg) (ha : s.answeredBy (k.answers s.cfg)) (h0 : s.stall = 0)
    (n : Nat) : calLoop (k.polls + n) s =
      if s.cnt + 1 = s.cfg.targetSamples then (.done, s.afterTick k) else calLoop n (s.afterTick k) := by
  obtain ⟨hu, hlen, hstatus⟩ := hv
  obtain ⟨haPolls, haTick⟩ := (answeredBy_append (pollEvents s.cfg k.unready) (pollEvents_length _ _)).1 ha
  have hnext : (s.afterPolls k.unready).nextAnswer = .ok k.status := ((answeredBy_cons .close).1 haTick).1
  have hpass := calPass_ready_of_answers (s := s.afterPolls k.unready) (by rw [hnext]; exact hstatus) k.reads
    (by rw [hnext]; exact haTick)
  rw [Tick.polls, Nat.add_assoc, calLoop_polls hu haPolls (by omega) (by omega), if_neg (by omega), Nat.add_comm 1,
    calLoop_succ hpass nofun, hnext, State.afterTick_eq]
  rfl

/-- The loop on ticks up to the target: it leaves by the `done` exit exactly if they reach it (R160). -/
theorem calLoop_ticks {ks : List Tick} (hv : ∀ k ∈ ks, k.valid s.cfg)
    (ha : s.answeredBy (ks.flatMap (Tick.answers s.cfg))) (h0 : s.stall = 0) (hlo : s.cnt < s.cfg.targetSamples)
    (hhi : s.cnt + ks.length ≤ s.cfg.targetSamples) (n : Nat) :
    calLoop (tickPolls ks + n) s =
      if s.cnt + ks.length = s.cfg.targetSamples then (.done, s.afterTicks ks) else calLoop n (s.afterTicks ks) := by
  induction ks generalizing s with
  | nil => simp [tickPolls, s.afterTicks_nil h0, hlo.ne]
  | cons k ks ih =>
    obtain ⟨hk, hv⟩ := List.forall_mem_cons.1 hv
    obtain ⟨haTick, haRest⟩ := (answeredBy_append (k.events s.cfg) (tick_events_length _ _)).1 ha
    rw [List.length_cons] at hhi ⊢
    rw [tickPolls, List.map_cons, List.sum_cons, ← tickPolls, Nat.add_assoc, calLoop_tick hk haTick h0]
    by_cases hlast : s.cnt + 1 = s.cfg.targetSamples
    · obtain rfl : ks = [] := List.eq_nil_of_length_eq_zero (by omega)
      simp [hlast, ← State.afterTicks_cons, (s.afterTick k).afterTicks_nil rfl]
    · have hlo' : s.cnt + 1 < s.cfg.targetSamples := by omega
      have hhi' : s.cnt + 1 + ks.length ≤ s.cfg.targetSamples := by omega
      rw [if_neg hlast, ih (s := s.afterTick k) hv haRest rfl hlo' hhi', State.afterTicks_cons]
      simp [Nat.add_assoc, Nat.add_comm 1]

end

/-! ### The offsets -/

/-- The offset of each axis: its mean, less gravity on the vertical axis (R162, R163). -/
theorem calOffsets_get_eq_sub (c : Cfg) (sum : Vec6) (i : Axis) : (calOffsets c sum).get i =
    sum.get i / (c.targetSamples : NumQ) - (if i = .az then c.gravity else 0) := by
  rw [calOffsets_get]
  split_ifs
  · rfl
  · exact (sub_zero _).symm

/-! ### CAL's body on ticks, and on a stall -/

section
variable {s : State} {ks : List Tick}

/-- CAL with ticks enough leaves by the `done` exit (R160, R165). -/
theorem calCommand_of_ticks (hlen : ks.length = s.cfg.targetSamples) (hv : ∀ k ∈ ks, k.valid s.cfg)
    (ha : s.answeredBy (ks.flatMap (Tick.answers s.cfg))) :
    calCommand s = .next (calDone ((calStart s).afterTicks ks)) := by
  have hcnt : (calStart s).cnt + ks.length = (calStart s).cfg.targetSamples := (Nat.zero_add _).trans hlen
  have hbound : tickPolls ks ≤ calBound s.cfg := by
    rw [calBound, ← hlen]
    exact tickPolls_le hv
  obtain ⟨n, hn⟩ := Nat.exists_eq_add_of_le hbound
  have hloop := calLoop_ticks (s := calStart s) hv ha rfl (targetSamples_pos s.cfg) hcnt.le n
  rw [if_pos hcnt] at hloop
  rw [calCommand, hn, hloop]

/-- CAL with fewer ticks and then a poll past the limit leaves by the `stalled` exit (R164, R165). -/
theorem calCommand_of_stall {us : List Answer} (hlen : ks.length < s.cfg.targetSamples)
    (hv : ∀ k ∈ ks, k.valid s.cfg) (hstall : us.length = s.cfg.stallLimit + 1) (hu : ∀ a ∈ us, answerUnready a)
    (ha : s.answeredBy (ks.flatMap (Tick.answers s.cfg) ++ us)) :
    calCommand s = .next (calStalled (((calStart s).afterTicks ks).afterPolls us)) := by
  obtain ⟨haTicks, haPolls⟩ := (answeredBy_append _ (ticks_events_length s.cfg ks)).1 ha
  have hcnt : (calStart s).cnt + ks.length < (calStart s).cfg.targetSamples := (Nat.zero_add _).trans_lt hlen
  have hcount : ((calStart s).afterTicks ks).stall + us.length = s.cfg.stallLimit + 1 := (Nat.zero_add _).trans hstall
  have hbound : tickPolls ks + us.length ≤ calBound s.cfg := by
    rw [hstall]
    exact tickPolls_add_stall_le hlen hv
  obtain ⟨n, hn⟩ := Nat.exists_eq_add_of_le hbound
  have hticks := calLoop_ticks (s := calStart s) hv haTicks rfl (targetSamples_pos s.cfg) hcnt.le (us.length + n)
  have hpolls := calLoop_polls (s := (calStart s).afterTicks ks) hu haPolls (Nat.zero_le _) hcount.le n
  rw [if_neg hcnt.ne] at hticks
  rw [if_pos (hcount ▸ Nat.lt_succ_self _)] at hpolls
  rw [calCommand, hn, Nat.add_assoc, hticks, hpolls]

/-- CAL's answer on either exit, in the frame of what its loop may change (R39). -/
theorem calFrame_answered {u : State} (h : calFrame s u) (o : Vec6) :
    ∃ evs : List Event, (∀ e ∈ evs, isStatusRead s.cfg e ∨ isSampleRead s.cfg e) ∧
      { u with regO := o, oValid := true, response := some 0x00 } = { s.afterReads evs with
        rdy := u.rdy, regS := u.regS, sValid := u.sValid, regSUM := u.regSUM, cnt := u.cnt, stall := u.stall
        regO := o, oValid := true, response := some 0x00 } := by
  obtain ⟨evs, hevs, hu⟩ := h
  refine ⟨evs, hevs, ?_⟩
  rw [hu]

theorem exec_cal_served (h : canServe s) (hO : s.oValid = false) : exec .cal s = calCommand s := by
  have ⟨ready, _, opened⟩ := h
  exact (exec_served (i := .cal) h ⟨ready, hO⟩).trans (withHandle_open calCommand opened)

end

/-! ### The answers ahead -/

section
variable (s : State)

/-- Whatever the bus answers, a ready tick comes within the next `n` polls, or those polls are all unready (R58,
R132). -/
theorem tick_or_unready (n : Nat) :
    (∃ k : Tick, (∀ a ∈ k.unready, answerUnready a) ∧ k.unready.length < n ∧ k.status.toNat % 4 ≠ 0 ∧
      s.answeredBy (k.answers s.cfg)) ∨
    (∃ us : List Answer, us.length = n ∧ (∀ a ∈ us, answerUnready a) ∧ s.answeredBy us) := by
  induction n generalizing s with
  | zero => exact .inr ⟨[], rfl, nofun, answeredBy_nil s⟩
  | succ n ih =>
    have hcons := fun a as => (answeredBy_cons (s := s) (a := a) (as := as)
      (.read s.cfg.devAddr s.cfg.regStatus s.nextAnswer)).2
    by_cases hu : answerUnready s.nextAnswer
    · rcases ih (s.afterReads [.read s.cfg.devAddr s.cfg.regStatus s.nextAnswer]) with
        ⟨k, hk, hlen, hstatus, ha⟩ | ⟨us, hlen, hus, ha⟩
      · exact .inl ⟨{ k with unready := s.nextAnswer :: k.unready }, List.forall_mem_cons.2 ⟨hu, hk⟩,
          Nat.succ_lt_succ hlen, hstatus, hcons _ _ ⟨rfl, ha⟩⟩
      · exact .inr ⟨s.nextAnswer :: us, congrArg Nat.succ hlen, List.forall_mem_cons.2 ⟨hu, hus⟩, hcons _ _ ⟨rfl, ha⟩⟩
    · obtain ⟨r, ha⟩ := sampleReads_exist (s.afterReads [.read s.cfg.devAddr s.cfg.regStatus s.nextAnswer])
      cases hnext : s.nextAnswer with rw [hnext] at hu
      | fail => exact absurd trivial hu
      | ok st => exact .inl ⟨⟨[], st, r⟩, nofun, Nat.succ_pos n, hu, hcons _ _ ⟨hnext, ha⟩⟩

/-- Whatever the bus answers, `n` valid ticks come, or fewer and then a stall (R164, R165). -/
theorem ticks_or_stall (n : Nat) :
    (∃ ks : List Tick, ks.length = n ∧ (∀ k ∈ ks, k.valid s.cfg) ∧ s.answeredBy (ks.flatMap (Tick.answers s.cfg))) ∨
    (∃ (ks : List Tick) (us : List Answer), ks.length < n ∧ (∀ k ∈ ks, k.valid s.cfg) ∧
      us.length = s.cfg.stallLimit + 1 ∧ (∀ a ∈ us, answerUnready a) ∧
      s.answeredBy (ks.flatMap (Tick.answers s.cfg) ++ us)) := by
  induction n generalizing s with
  | zero => exact .inl ⟨[], rfl, nofun, answeredBy_nil s⟩
  | succ n ih =>
    rcases tick_or_unready s (s.cfg.stallLimit + 1) with ⟨k, hk, hlen, hstatus, ha⟩ | ⟨us, hlen, hus, ha⟩
    · have hvalid : k.valid s.cfg := ⟨hk, Nat.le_of_lt_succ hlen, hstatus⟩
      have happend := fun as => (answeredBy_append (s := s) (bs := as) (k.events s.cfg) (tick_events_length _ _)).2
      rcases ih (s.afterReads (k.events s.cfg)) with ⟨ks, hn, hks, hrest⟩ | ⟨ks, us, hn, hks, hlen, hus, hrest⟩
      · exact .inl ⟨k :: ks, congrArg Nat.succ hn, List.forall_mem_cons.2 ⟨hvalid, hks⟩, happend _ ⟨ha, hrest⟩⟩
      · refine .inr ⟨k :: ks, us, Nat.succ_lt_succ hn, List.forall_mem_cons.2 ⟨hvalid, hks⟩, hlen, hus, ?_⟩
        rw [List.flatMap_cons, List.append_assoc]
        exact happend _ ⟨ha, hrest⟩
    · exact .inr ⟨[], us, Nat.succ_pos n, nofun, hlen, hus, ha⟩

end

/-! ### Counting the polls -/

section
variable (c : Cfg)

theorem statusReads_append (as bs : List Event) : statusReads c (as ++ bs) = statusReads c as + statusReads c bs :=
  List.countP_append

theorem statusReads_pollEvents (us : List Answer) : statusReads c (pollEvents c us) = us.length := by
  simp [statusReads, pollEvents, Function.comp_def]

/-- No register of an axis is the status register (R8). -/
theorem statusReads_sampleEvents (r : Axis → AxisRead) : statusReads c (sampleEvents c r) = 0 := by
  refine List.countP_eq_zero.2 fun e he => ?_
  obtain ⟨i, a, rfl | rfl⟩ := sampleEvents_sampleRead c r e he <;>
    obtain ⟨-, -, hlow, hhigh, -⟩ := axisAddressesDoNotWrap c i
  · simpa using hlow
  · simpa using hhigh

theorem statusReads_ticks (ks : List Tick) : statusReads c (ks.flatMap (Tick.events c)) = tickPolls ks := by
  induction ks with
  | nil => rfl
  | cons k ks ih =>
    rw [List.flatMap_cons, statusReads_append, ih, Tick.events, statusReads_append, statusReads_pollEvents,
      statusReads_sampleEvents]
    simp [tickPolls, Tick.polls]

end

/-! ### The obligations -/

/-- Settles O21: the loop's frame and its two exits. -/
theorem calAlwaysCompletes : Obligations.CalAlwaysCompletes := by
  intro s h hO
  rw [exec_cal_served h hO]
  rcases calCommand_cases s with ⟨u, hframe, hcnt, hstall, he⟩ | ⟨u, hframe, hstall, hcnt, he⟩
  · obtain ⟨evs, hevs, ht⟩ := calFrame_answered hframe (calOffsets u.cfg u.regSUM)
    have hcfg := calFrame_cfg hframe
    refine ⟨calDone u, evs, he, hevs, ht, .inl ⟨hcfg ▸ hcnt, hstall, fun i => ?_⟩⟩
    rw [← hcfg, ← calOffsets_get_eq_sub]
    rfl
  · obtain ⟨evs, hevs, ht⟩ := calFrame_answered hframe Vec6.zero
    have hcfg := calFrame_cfg hframe
    exact ⟨calStalled u, evs, he, hevs, ht, .inr ⟨hcfg ▸ hcnt, hcfg ▸ hstall, Vec6.get_zero⟩⟩

/-- Settles O22: CAL's loop on ticks up to the target, its sums begun at 0. -/
theorem calibrationIsTheMeanOfReadySamples : Obligations.CalibrationIsTheMeanOfReadySamples := by
  intro s ks h hO hlen hv ha
  have hne : ks.isEmpty = false :=
    List.isEmpty_eq_false_iff.2 (List.ne_nil_of_length_pos (hlen ▸ targetSamples_pos s.cfg))
  have hoffsets : (Vec6.ofFn fun i =>
        axisSum (tickSamples s.cfg ks) i / (s.cfg.targetSamples : NumQ) - (if i = .az then s.cfg.gravity else 0)) =
      calOffsets s.cfg (Vec6.ofFn (axisSum (tickSamples s.cfg ks))) :=
    Vec6.ext_get fun i => by rw [calOffsets_get_eq_sub, Vec6.get_ofFn, Vec6.get_ofFn]
  rw [exec_cal_served h hO, calCommand_of_ticks hlen hv ha, hoffsets, ← ticks_events_length, ← hlen]
  simp [calDone, State.respond, State.afterTicks, calStart, State.afterReads, hne, respWord_ok_eq_ite]

/-- Settles O23: CAL's loop on the ticks, then on the polls of the stall. -/
theorem stalledCalibrationGivesZeros : Obligations.StalledCalibrationGivesZeros := by
  intro s ks us h hO hlen hv hstall hu ha
  have hne : us.isEmpty = false := List.isEmpty_eq_false_iff.2 (List.ne_nil_of_length_eq_add_one hstall)
  have hdrawn : (ks.flatMap (Tick.answers s.cfg) ++ us).length =
      (ks.flatMap (Tick.events s.cfg) ++ pollEvents s.cfg us).length := by
    rw [List.length_append, List.length_append, ticks_events_length, pollEvents_length]
  rw [exec_cal_served h hO, calCommand_of_stall hlen hv hstall hu ha, hdrawn, ← hstall]
  simp [calStalled, State.respond, State.afterTicks, State.afterPolls, calStart, State.afterReads, hne,
    respWord_ok_eq_ite, Nat.add_assoc]

/-- Settles O24: the answers ahead are ticks enough, or fewer and a stall. -/
theorem everyCalibrationEndsOneWay : Obligations.EveryCalibrationEndsOneWay := by
  intro s h hO
  rcases ticks_or_stall s s.cfg.targetSamples with ⟨ks, hlen, hv, ha⟩ | ⟨ks, us, hlen, hv, hstall, hu, ha⟩
  · exact .inl ⟨ks, hlen, hv, ha, calibrationIsTheMeanOfReadySamples s ks h hO hlen hv ha⟩
  · exact .inr ⟨ks, us, hlen, hv, hstall, hu, ha, stalledCalibrationGivesZeros s ks us h hO hlen hv hstall hu ha⟩

/-- Settles O25: the polls of the ticks, and of the stall. -/
theorem calibrationPollBounds : Obligations.CalibrationPollBounds := by
  intro s t h hO ht
  rcases everyCalibrationEndsOneWay s h hO with ⟨ks, hlen, hv, -, he⟩ | ⟨ks, us, hlen, hv, hstall, -, -, he⟩ <;>
    cases ht.symm.trans he
  · have hle := tickPolls_le hv
    have hge := length_le_tickPolls ks
    rw [hlen] at hle hge
    refine ⟨_, rfl, ?_, fun _ => ?_, fun hlt => absurd hlt (lt_irrefl _)⟩ <;> rw [statusReads_ticks]
    · exact hle
    · exact hge
  · refine ⟨_, List.append_assoc _ _ _, ?_, fun heq => absurd heq hlen.ne, fun _ => ?_⟩ <;>
      rw [statusReads_append, statusReads_ticks, statusReads_pollEvents, hstall]
    · exact tickPolls_add_stall_le hlen hv
    · exact Nat.le_add_left _ _

end Sys2Proof.Machine
end

section
/-!
The live correction: the filter's laws (R180 to R182, R186), and the commands CORR (R183) and RUN (R184, R185).
-/

namespace Sys2Proof.Machine

/-! ### A lane of the filter -/

section
variable (th s o : NumQ)

/-- A threshold of 0 zeroes nothing (R181). -/
theorem correctLane_zero_threshold : correctLane 0 s o = s - o := by
  rw [correctLane_eq, if_neg (abs_nonneg (s - o)).not_gt]

theorem correctLane_zero_offset : correctLane th s 0 = if |s| < th then 0 else s := by
  rw [correctLane_eq, sub_zero]

/-- A value the filter has zeroed or kept, it zeroes or keeps again (R186 (b)). -/
theorem correctLane_idem : correctLane th (correctLane th s o) 0 = correctLane th s o := by
  rw [correctLane_zero_offset]
  rcases correctLane_outside th s o with hzero | hkept
  · rw [hzero, ite_self]
  · exact if_neg hkept.not_gt

theorem correctLane_neg : correctLane th (-s) (-o) = -correctLane th s o := by
  rw [correctLane_eq, correctLane_eq, neg_sub_neg, abs_sub_comm]
  split_ifs
  · exact neg_zero.symm
  · exact (neg_sub s o).symm

theorem correctLane_self : correctLane th s s = 0 := by
  rw [correctLane_eq, sub_self, ite_self]

end

/-! ### The filter on a record -/

/-- `Correct` lane by lane is the rule of R180. -/
theorem correct_eq_corrected (th : NumQ) (v o : Vec6) : correct th v o = corrected th v o :=
  Vec6.ext_get fun i => by rw [correct_get, correctLane_eq, corrected, Vec6.get_ofFn]

/-- A lane without bias: the sample, zeroed inside the deadzone (R186 (a)). -/
theorem correct_get_of_zero_offset (th : NumQ) (v : Vec6) {o : Vec6} {i : Axis} (ho : o.get i = 0) :
    (correct th v o).get i = if |v.get i| < th then 0 else v.get i := by
  rw [correct_get, ho, correctLane_zero_offset]

/-- Settles O35: the lane function is the model's own. -/
theorem lanesAreIndependent : Obligations.LanesAreIndependent := ⟨correctLane, correct_get⟩

/-- Settles O34: the two branches of the lane, and the threshold of 0. -/
theorem deadzoneIsStrict : Obligations.DeadzoneIsStrict := by
  intro th s o i
  simp only [correct_get]
  refine ⟨fun hin => ?_, fun hout => ?_, correctLane_zero_threshold _ _⟩
  · rw [correctLane_eq, if_pos hin]
  · rw [correctLane_eq, if_neg hout.not_gt]

/-- Settles O36: each law is the lane's, on all lanes; the stream is (a) at threshold 0.01. -/
theorem filterLaws : Obligations.FilterLaws := by
  refine ⟨fun th v i => correct_get_of_zero_offset th v (Vec6.get_zero i), fun th v => Vec6.ext_get fun i => ?_,
    fun th v o => Vec6.ext_get fun i => ?_, fun th v _ => Vec6.ext_get fun i => ?_, fun v o i _ ho => ?_⟩
  · simp only [correct_get, Vec6.get_zero, correctLane_idem]
  · simp only [correct_get, Vec6.get_ofFn, correctLane_neg]
  · simp only [correct_get, Vec6.get_zero, correctLane_self]
  · rw [correct_get_of_zero_offset _ v ho]
    refine ⟨fun hv => ?_, fun hv => ?_, fun hv => ?_⟩ <;> rw [hv] <;> norm_num

/-! ### CORR -/

/-- Settles O26: CORR is admitted, and its body is one correction of `S`. -/
theorem corrCorrectsAndEmits : Obligations.CorrCorrectsAndEmits := by
  intro s ready hc hS hO
  have hperformed : exec .corr s = .next (corrCommand s) :=
    exec_admitted .corr (terminal_of_ready ready) hc ((admits_iff .corr s).2 ⟨ready, hS, hO⟩)
  rw [hperformed, corrCommand_eq, correct_eq_corrected, respWord_ok_eq_ite]
  rfl

/-! ### One iteration -/

section
variable {s : State}

/-- `Iterate()` on an unready poll, all it changes (R185). -/
theorem iterate_of_unready (h : answerUnready (s.answerAt 0)) : iterate s = { s with
    rdy := false
    trace := s.trace ++ [.read s.cfg.devAddr s.cfg.regStatus (s.answerAt 0), .wait s.cfg.tPoll]
    answers := s.answers.tail, draws := s.draws + 1 } := by
  rw [← nextAnswer_eq_answerAt] at h ⊢
  rw [iterate_unready h]
  simp [State.afterReads]

/-- `Iterate()` on a ready tick, all it changes, by the answers to its sample (R180, R185). -/
theorem iterate_of_ready (h : ¬ answerUnready (s.answerAt 0)) (r : Axis → AxisRead)
    (ha : s.answeredBy (s.answerAt 0 :: sampleAnswers s.cfg r)) : iterate s = { s with
    rdy := true, regS := sampleValue s.cfg r, sValid := true
    regC := corrected s.cfg.threshold (sampleValue s.cfg r) s.regO, cValid := true
    out := s.out ++ [corrected s.cfg.threshold (sampleValue s.cfg r) s.regO]
    trace := s.trace ++ .read s.cfg.devAddr s.cfg.regStatus (s.answerAt 0) :: sampleEvents s.cfg r ++
      [.emit (corrected s.cfg.threshold (sampleValue s.cfg r) s.regO)]
    answers := s.answers.drop (1 + (sampleAnswers s.cfg r).length)
    draws := s.draws + (1 + (sampleAnswers s.cfg r).length) } := by
  rw [← nextAnswer_eq_answerAt] at h ha ⊢
  rw [iterate_ready_of_answers h r ha, ← correct_eq_corrected, ← sampleEvents_length, Nat.add_comm 1]
  rfl

/-- Whatever the bus answers to the first primitive, it answers a `ReadSample()` after it axis by axis (R58, R134). -/
theorem sampleReads_exist_after_poll (s : State) :
    ∃ r : Axis → AxisRead, s.answeredBy (s.answerAt 0 :: sampleAnswers s.cfg r) := by
  let e : Event := .read s.cfg.devAddr s.cfg.regStatus (s.answerAt 0)
  obtain ⟨r, hr⟩ := sampleReads_exist (s.afterReads [e])
  exact ⟨r, (answeredBy_cons e).2 ⟨nextAnswer_eq_answerAt s, hr⟩⟩

/-! ### RUN -/

/-- From the top of an iteration with no cancellation pending, one `Iterate()` (R184). -/
theorem runIteration_iterates (hc : s.cancelPending = false) (opened : s.handleOpen = true) :
    runIteration s = .next (iterate s) := by
  simp [runIteration, withHandle, hc, opened]

/-- A step of a RUN in progress, the host doing nothing and no cancellation pending, is one `Iterate()` (R184). -/
theorem step_run (hr : s.running = true) (hq : hostQuiet s) (hc : s.cancelPending = false)
    (opened : s.handleOpen = true) : step s = .next (iterate { s with script := s.script.tail }) := by
  rw [step_of_hostTurn (hostTurn_quiet hq)]
  exact (blockTurn_running (u := { s with script := s.script.tail }) hr).trans (runIteration_iterates hc opened)

/-- While RUN is in progress the reset input is refused: a host's move that answers is another (U5). -/
theorem noReset_of_running {u : State} (hr : s.running = true) (h : hostTurn s = .next u) : noReset s := by
  intro c rest hs
  cases h.symm.trans ((hostTurn_reset hs).trans (applyReset_running c hr))

end

/-- Settles O27: RUN is served, and begins with one iteration. -/
theorem runMakesItsFirstIteration : Obligations.RunMakesItsFirstIteration := by
  intro s h hO
  rw [exec_run_served h hO]
  refine ⟨fun hu => ?_, fun hu => ⟨sampleReads_exist_after_poll s, fun r ha => ?_⟩⟩
  · rw [iterate_of_unready (s := { s with running := true }) hu]; rfl
  · rw [iterate_of_ready (s := { s with running := true }) hu r ha]; rfl

/-- Settles O28: the step is one more iteration. -/
theorem runGoesOnIterating : Obligations.RunGoesOnIterating := by
  intro s hr hq hc opened
  rw [step_run hr hq hc opened]
  refine ⟨fun hu => ?_, fun r hu ha => ?_⟩
  · rw [iterate_of_unready (s := { s with script := s.script.tail }) hu]; rfl
  · rw [iterate_of_ready (s := { s with script := s.script.tail }) hu r ha]; rfl

/-- Settles O29: the host's move is no reset, and the block's turn takes the cancellation or iterates. -/
theorem runEndsOnlyByCancellation : Obligations.RunEndsOnlyByCancellation := by
  intro s t hr h
  obtain ⟨u, hu, ht⟩ := step_turn h
  obtain ⟨script, port, cancel, rfl⟩ := hostTurn_noReset (noReset_of_running hr hu) hu
  cases ht with
  | cancelled running pending =>
    rw [takeCancel_eq]
    exact .inr ⟨rfl, pending, rfl, rfl, rfl⟩
  | iterated running opened =>
    obtain ⟨hrun, hresp⟩ := iterate_keeps_running { s with script := script, port := port, cancelPending := cancel }
    exact .inl ⟨hrun.trans hr, (goesOn_iterate _).dstate, hresp⟩
  | idle idle empty => exact absurd hr (Bool.eq_false_iff.1 idle)
  | illegal idle => exact absurd hr (Bool.eq_false_iff.1 idle)
  | executed idle does => exact absurd hr (Bool.eq_false_iff.1 idle)

end Sys2Proof.Machine
end

section
/-!
Exceptions: the acceptance of a command (R205, R206), the cancellation (R210, R211), and that nothing else stops the
block or takes it out of `READY` (R201, R202, R213).
-/

namespace Sys2Proof.Machine

section
variable {i : Instr} {s t u : State}

/-! ### A command refused -/

/-- A command is refused in a terminal state, and where it is not admitted with no cancellation pending (R206). -/
theorem exec_refused (h : s.terminal = true ∨ (s.cancelPending = false ∧ ¬ admitTable s i)) :
    exec i s = .next (s.respond false .refused) := by
  by_cases ht : s.terminal = true
  · exact exec_terminal i ht
  · obtain ⟨hc, ha⟩ := h.resolve_left ht
    exact exec_not_admitted i (Bool.eq_false_iff.2 ht) hc (Bool.eq_false_iff.2 (mt (admits_iff i s).1 ha))

/-- In a terminal state with no RUN in progress no turn of the block moves the driver state (R206, R214). -/
theorem blockTurn_terminal (h : blockTurn u = .next t) (ht : u.terminal = true) (hr : u.running = false) :
    t.dstate = u.dstate := by
  rcases blockTurn_cases u with
    ⟨hrun, -⟩ | ⟨-, -, he⟩ | ⟨w, rest, e, -, -, -, he⟩ | ⟨w, rest, i, -, -, -, he⟩
  · exact absurd hrun (Bool.eq_false_iff.1 hr)
  · rw [he] at h; cases h; rfl
  · rw [he] at h; cases h; rfl
  · rw [he, exec_terminal (s := { u with port := rest, response := none }) i ht] at h; cases h; rfl

/-! ### The cancellation -/

/-- At the top of an iteration a pending cancellation is taken (R184, R211). -/
theorem runIteration_cancel (hc : s.cancelPending = true) : runIteration s = .next (takeCancel s) := by
  simp [runIteration, hc]

/-- After a move of the host that is no reset, the latch is set if it was or if the move is the cancel input (R210). -/
theorem hostTurn_latch (hn : noReset s) (hl : s.cancelPending = true ∨ ∃ rest, s.script = .cancel :: rest)
    (h : hostTurn s = .next u) : u.cancelPending = true := by
  rcases hl with hc | ⟨rest, hs⟩
  · rcases hostTurn_cases h with
      ⟨-, rfl⟩ | ⟨rest, -, rfl⟩ | ⟨rest, w, -, rfl⟩ | ⟨rest, -, rfl⟩ | ⟨rest, c, hs, -, -⟩
    · exact hc
    · exact hc
    · exact hc
    · rfl
    · exact absurd hs (hn _ _)
  · rw [hostTurn_cancel hs] at h; cases h; rfl

/-- No iteration of RUN writes the latch, nor does taking the cancellation (R210). -/
theorem runIteration_keeps_latch (h : runIteration s = .next t) : t.cancelPending = s.cancelPending := by
  rcases runIteration_cases s with ⟨-, he⟩ | ⟨-, -, he⟩ | ⟨-, -, he⟩ <;> rw [he] at h <;> cases h
  · rw [takeCancel_eq]
  · exact (goesOn_iterate s).cancelPending

/-- No command writes the latch (R39, R210). -/
theorem exec_keeps_latch (h : exec i s = .next t) : t.cancelPending = s.cancelPending := by
  obtain ⟨-, -, -, -, -, hlatch, -⟩ := writersOfEachRegister i s t h
  exact hlatch

/-- No turn of the block writes the latch (R210). -/
theorem blockTurn_keeps_latch (h : blockTurn u = .next t) : t.cancelPending = u.cancelPending := by
  rcases blockTurn_cases u with
    ⟨-, he⟩ | ⟨-, -, he⟩ | ⟨w, rest, e, -, -, -, he⟩ | ⟨w, rest, i, -, -, -, he⟩ <;> rw [he] at h
  · exact runIteration_keeps_latch h
  · cases h; rfl
  · cases h; rfl
  · have kept := exec_keeps_latch h
    exact kept

/-! ### Nothing stops the block -/

/-- A command that is admitted answers if the handle is open in `READY`: its reads are admitted (R57), no answer to one
of them stops it (R201), and CAL ends (R165). -/
theorem performed_answers (ha : admitTable s i) (hh : s.dstate = .ready → s.handleOpen = true) :
    ∃ t, performed i s = .next t := by
  cases i with
  | init => exact ⟨initSequence s, rfl⟩
  | poll => exact ⟨pollCommand s, withHandle_open (fun v => .next (pollCommand v)) (hh ha)⟩
  | read => exact ⟨readCommand s, withHandle_open (fun v => .next (readCommand v)) (hh ha)⟩
  | cal =>
    have opened : performed .cal s = calCommand s := withHandle_open calCommand (hh ha.1)
    rw [opened]
    rcases calCommand_cases s with ⟨v, -, -, -, he⟩ | ⟨v, -, -, -, he⟩
    · exact ⟨calDone v, he⟩
    · exact ⟨calStalled v, he⟩
  | corr => exact ⟨corrCommand s, rfl⟩
  | run =>
    rcases runIteration_cases { s with running := true } with ⟨-, he⟩ | ⟨-, closed, -⟩ | ⟨-, -, he⟩
    · exact ⟨_, he⟩
    · exact absurd (hh ha.1) (Bool.eq_false_iff.1 closed)
    · exact ⟨_, he⟩

/-- Every command answers if the handle is open in `READY`: refused, by taking the cancellation, or performed (R205). -/
theorem exec_answers (i : Instr) (hh : s.dstate = .ready → s.handleOpen = true) : ∃ t, exec i s = .next t := by
  rcases exec_cases i s with ⟨he, -⟩ | ⟨-, -, he⟩ | ⟨-, -, ha, he⟩
  · exact ⟨_, he⟩
  · exact ⟨_, he⟩
  · rw [he]
    exact performed_answers ((admits_iff i s).1 ha) hh

/-- A move of the host answers, unless it is a reset that R8 or U5 refuses. -/
theorem hostTurn_answers (hreset : ∀ c rest, s.script = .reset c :: rest → s.running = false ∧ c.isAdmitted = true) :
    ∃ u, hostTurn s = .next u := by
  cases hs : s.script with
  | nil => exact ⟨_, hostTurn_quiet (.inl hs)⟩
  | cons m rest =>
    cases m with
    | quiet => exact ⟨_, hostTurn_quiet (.inr ⟨rest, hs⟩)⟩
    | present w => exact ⟨_, hostTurn_present hs⟩
    | cancel => exact ⟨_, hostTurn_cancel hs⟩
    | reset c =>
      obtain ⟨hr, hc⟩ := hreset c rest hs
      exact ⟨_, (hostTurn_reset hs).trans (applyReset_admitted { c with ok := hc } hr)⟩

/-- The host's move keeps the invariant, or resets into it. -/
theorem Inv.hostTurn (h : Inv s) (hu : hostTurn s = .next u) : Inv u := by
  rcases hostTurn_next hu with ⟨script, port, cancel, rfl⟩ | ⟨rest, c, -, rfl⟩
  · exact h.hostMove script port cancel
  · exact inv_reset c rest s.answers s.draws

/-- The block's turn answers in every state that meets the invariant: the handle is open in `READY`, and RUN goes on
only there. -/
theorem Inv.blockTurn_answers (h : Inv u) : ∃ t, blockTurn u = .next t := by
  rcases blockTurn_cases u with
    ⟨hr, he⟩ | ⟨-, -, he⟩ | ⟨w, rest, e, -, -, -, he⟩ | ⟨w, rest, i, -, -, -, he⟩ <;> rw [he]
  · rcases runIteration_cases u with ⟨-, hi⟩ | ⟨-, closed, -⟩ | ⟨-, -, hi⟩
    · exact ⟨_, hi⟩
    · exact absurd (h.handle.2 (h.live hr).1) (Bool.eq_false_iff.1 closed)
    · exact ⟨_, hi⟩
  · exact ⟨_, rfl⟩
  · exact ⟨_, rfl⟩
  · exact exec_answers i h.handle.2

end

/-! ### The obligations -/

/-- Settles O5: the host's move is past, and the idle block takes the word. -/
theorem stepRunsDecodedInstruction : Obligations.StepRunsDecodedInstruction :=
  fun _ _ _ _ hr hq hp hd => step_command hr hq hp hd

/-- Settles O14: the refusal of R205 steps 2 and 4. Without a reset the host's move leaves the driver state, and so does
the block's turn in a terminal state. -/
theorem refusedCommandChangesNothing : Obligations.RefusedCommandChangesNothing := by
  refine ⟨fun i s h => exec_refused (h.imp_left terminal_iff.2), fun s t hterm hr hn h => ?_⟩
  obtain ⟨u, hu, ht⟩ := step_next h
  obtain ⟨script, port, cancel, rfl⟩ := hostTurn_noReset hn hu
  have kept := blockTurn_terminal ht (terminal_iff.2 hterm) hr
  exact kept

/-- Settles O15: at acceptance and at the top of an iteration the turn is `takeCancel`. -/
theorem pendingCancellationIsTaken : Obligations.PendingCancellationIsTaken := by
  constructor
  · intro i s notFailed notStopped hc
    have live : s.terminal = false := Bool.eq_false_iff.2 fun ht => (terminal_iff.1 ht).elim notFailed notStopped
    rw [exec_cancel i live hc, takeCancel_eq]
    rfl
  · intro s hr hq hc
    calc step s = blockTurn { s with script := s.script.tail } := step_of_hostTurn (hostTurn_quiet hq)
      _ = runIteration { s with script := s.script.tail } := blockTurn_running hr
      _ = .next (takeCancel { s with script := s.script.tail }) := runIteration_cancel hc
      _ = _ := by rw [takeCancel_eq]; rfl

/-- Settles O16: the host's move leaves the latch set, and no turn of the block writes it. -/
theorem cancelLatchIsSticky : Obligations.CancelLatchIsSticky := by
  intro s t hn hl h
  obtain ⟨u, hu, ht⟩ := step_next h
  exact (blockTurn_keeps_latch ht).trans (hostTurn_latch hn hl hu)

/-- Settles O41: the host's move answers and keeps the invariant, and so the block's turn answers. -/
theorem stepNeverStops : Obligations.StepNeverStops := by
  intro s hInv hreset
  obtain ⟨u, hu⟩ := hostTurn_answers hreset
  rw [step_of_hostTurn hu]
  exact (hInv.hostTurn hu).blockTurn_answers

/-- Settles O47: the command answers; INIT is refused in `READY`, and of the others none writes the driver state, the
handle or a status register (R39). -/
theorem busReadFailureIsNotFatal : Obligations.BusReadFailureIsNotFatal := by
  intro i s ready hc opened
  by_cases hi : i = .init
  · have refused : ¬ admitTable s i := by simp [hi, admitTable, ready]
    exact ⟨_, exec_refused (.inr ⟨hc, refused⟩), ready, opened, rfl, rfl⟩
  · obtain ⟨t, ht⟩ := exec_answers i fun _ => opened
    obtain ⟨-, -, -, -, hkeeps, -⟩ := writersOfEachRegister i s t ht
    obtain ⟨hdstate, hhandle, hexit, hfail⟩ := hkeeps hi hc
    exact ⟨t, ht, hdstate.trans ready, hhandle.trans opened, hexit, hfail⟩

end Sys2Proof.Machine
end

section
/-!
The idle block: with the host doing nothing and no word at the port, a step only passes the host's move (R240).
-/

namespace Sys2Proof.Machine

/-- Settles O8: the host's move is past, and the idle block finds no word at its port. -/
theorem idleBlockWaits : Obligations.IdleBlockWaits := by
  intro s hr hq hp
  calc step s = blockTurn { s with script := s.script.tail } := step_of_hostTurn (hostTurn_quiet hq)
    _ = .next { s with script := s.script.tail } := blockTurn_idle hr hp

end Sys2Proof.Machine
end
